-- ==== Sys2Proof/Word.lean ====
section
/-! DEFINITION. The word types of the engine (00_scope.md R9, R12, R13). -/

namespace Sys2Proof

/-- `bits32`: one register or lane (R12, R44). -/
abbrev Word := BitVec 32

/-- `bits8`: one byte (R12). -/
abbrev Byte := BitVec 8

/-- `Block`: 64 lanes of 32 bits (R13). MASK and DATA are each one block (R21, R22). -/
abbrev Block := Vector Word 64

/-- The IV register file: 8 words (R20). -/
abbrev IvFile := Vector Word 8

end Sys2Proof
end

