-- ==== Sys2Proof/Syntax.lean ====
section
/-! DEFINITION. The commands of the engine (30_encoding.md R71) and what the outside world can
present to it (20_memory.md R41, 30_encoding.md R74 and R75, 70_reset_and_hazards.md R144,
60_exceptions.md R143). -/

namespace Sys2Proof

/-- The eight commands, one constructor per row of the opcode table (R71). No command has an
operand field (R70). -/
inductive Instr where
  | nop       -- R107
  | keysched  -- R82
  | encblk    -- R95
  | decblk    -- R96
  | perm      -- R89
  | unperm    -- R90
  | setmask   -- R97
  | clear     -- R108
  deriving DecidableEq, Repr

/-- The port values of one host transaction (R41): `bus_write`, `bus_addr`, `bus_size`,
`bus_wdata`. Any value is presentable; R56 says which accesses are legal. -/
structure Access where
  write : Bool
  addr  : BitVec 10
  size  : BitVec 2
  wdata : Word
  deriving DecidableEq, Repr

/-- What the host does with a bus error of its own access (R57, U6; log 11): `stop`, the run is
faulted; `handle`, the host goes on from the unchanged engine state. -/
inductive OnBusError where
  | stop
  | handle
  deriving DecidableEq, Repr

/-- One thing the outside presents. -/
inductive Input where
  /-- A host transaction (R42; `WR` and `RD` of R74). -/
  | access (a : Access) (onError : OnBusError)
  /-- `WAIT` (R75): read STATUS again until bit 0 of the value read is 0. -/
  | wait
  /-- A rising clock edge with `rst_n = 0`, with the transaction presented at it, if any (R144). -/
  | resetEdge (presented : Option Access)
  /-- The platform removes the engine's power (R143, U16). -/
  | powerLoss
  deriving DecidableEq, Repr

end Sys2Proof
end

