-- ==== Sys2Proof/WellFormed.lean ====
section
/-! DEFINITION. Well-formedness checks on what is written: a command word (R68, R72), a command
(R70) and an access (R56). The machine has its own, repairable readings of the same rules
(`decode` in Decode.lean, `Access.legal` in Machine/Bus.lean); Obligations.lean states that they
agree with these. -/

namespace Sys2Proof

/-- The `MBZ` field, bits 31:4, is zero (R68). -/
def CmdWord.mbzZero (v : Word) : Bool := v.toNat / 16 == 0

/-- The `OP` field, bits 3:0, is one of the eight opcodes (R71). -/
def CmdWord.opDefined (v : Word) : Bool := v.toNat % 16 ≤ 7

/-- A command word of R68 with an opcode of R71. -/
def CmdWord.wellFormed (v : Word) : Bool := CmdWord.mbzZero v && CmdWord.opDefined v

/-- No command has a register or an immediate field (R70), so every command is well formed. -/
def Instr.wellFormed (i : Instr) : Bool :=
  match i with
  | .nop | .keysched | .encblk | .decblk | .perm | .unperm | .setmask | .clear => true

/-- The access is 32 bits wide: `bus_size = 2` (R56). -/
def Access.sizeOk (a : Access) : Bool := a.size.toNat == 2

/-- The offset is a multiple of 4 (R56). -/
def Access.aligned (a : Access) : Bool := a.addr.toNat % 4 == 0

/-- The only legal access (R56). -/
def Access.wellFormed (a : Access) : Bool := a.sizeOk && a.aligned

/-- An input whose access, if it is one, is legal. -/
def Input.wellFormed (i : Input) : Bool :=
  match i with
  | .access a _ => a.wellFormed
  | .wait => true
  | .resetEdge _ => true
  | .powerLoss => true

end Sys2Proof
end

