-- ==== Sys2Proof/Decode.lean ====
section
/-! DEFINITION. The command decoder of 30_encoding.md R72, and after it the encoder of R71. -/

namespace Sys2Proof

/-- Why a word is illegal (R73). -/
inductive DecodeError where
  /-- `MBZ`, bits 31:4, is not zero. -/
  | mbzNotZero
  /-- `MBZ` is zero and `OP` is 0x8 to 0xF, reserved for future commands. -/
  | reservedOp
  deriving DecidableEq, Repr

/-- The field `OP`, bits 3:0 (R68). -/
def opField (v : Word) : BitVec 4 := v.extractLsb' 0 4

/-- The field `MBZ`, bits 31:4 (R68). -/
def mbzField (v : Word) : BitVec 28 := v.extractLsb' 4 28

/-- The opcode map of R71, read from the field `OP`. -/
def instrOfOp (op : BitVec 4) : Option Instr :=
  match op.toNat with
  | 0x0 => some .nop
  | 0x1 => some .keysched
  | 0x2 => some .encblk
  | 0x3 => some .decblk
  | 0x4 => some .perm
  | 0x5 => some .unperm
  | 0x6 => some .setmask
  | 0x7 => some .clear
  | _ => none

/-- `decode` of R72, total on every 32-bit word. -/
def decode (v : Word) : Except DecodeError Instr :=
  if mbzField v ≠ 0 then .error .mbzNotZero
  else
    match instrOfOp (opField v) with
    | some i => .ok i
    | none => .error .reservedOp

/-- The opcode of a command (R71). -/
def opOfInstr (i : Instr) : BitVec 4 :=
  match i with
  | .nop => 0x0
  | .keysched => 0x1
  | .encblk => 0x2
  | .decblk => 0x3
  | .perm => 0x4
  | .unperm => 0x5
  | .setmask => 0x6
  | .clear => 0x7

/-- The command word of a command: `zext_32(OP)` (R71). -/
def encode (i : Instr) : Word := (opOfInstr i).setWidth 32

/-- The bus word that holds the `nbits` bits of `w`, as the opcode table numbers them: the engine's
instruction is one 32-bit word, bit 0 the least significant (R68, R69), so no byte order enters. -/
def tableWord (nbits w : Nat) : Word := BitVec.ofNat 32 (w % 2 ^ nbits)

/-- The instruction the decoder reads from a row's word, numbered as the opcode table numbers it. -/
def decodeTableWord (nbits w : Nat) : Option Instr := (decode (tableWord nbits w)).toOption

end Sys2Proof
end

