-- ==== Sys2Proof/Config.lean ====
section
/-! DEFINITION. What an implementation fixes (00_scope.md R10) and the free values of the model
(93_implementation_defined.md). Every opaque constant has no body: a statement that mentions one
holds for every value of it. -/

namespace Sys2Proof

/-- `PERM`, with `UNPERM` its inverse (R84, R85, U2; log 4): one fixed bijection on blocks. As an
equivalence of `Block` with itself it carries both laws of R84 and nothing else. -/
opaque Config.permutation : Equiv.Perm Block

/-- `PERM` of R84. -/
def Config.perm (x : Block) : Block := Config.permutation x

/-- `UNPERM` of R84. -/
def Config.unperm (x : Block) : Block := Config.permutation.symm x

/-- The unspecified value of the `n`-th read of IV, MASK or DATA while `BUSY = 1` (R51, U1; log 3).
FREE VALUE: two reads of one word have different indices and need not agree. -/
opaque Config.busyRead : Nat → Word

/-- Which 0x400-byte page the platform maps the window at (R43, U4; log 5). -/
opaque Config.engineBasePage : Nat

/-- `ENGINE_BASE`: a multiple of 0x400 (R43). -/
def Config.engineBase : Nat := 0x400 * Config.engineBasePage

/-- `IV_BYTES` (R9). -/
abbrev Config.ivBytes : Nat := 32

/-- `BLOCK_BYTES` (R9). -/
abbrev Config.blockBytes : Nat := 256

end Sys2Proof
end

