-- ==== Sys2Proof/Machine/State.lean ====
section
/-! DEFINITION. The state of the machine as plain data (10_state.md R40), its reset value (R39), and
the reasons a step can stop. -/

namespace Sys2Proof.Machine

/-- The agents whose events the steps carry out (R11). -/
inductive Agent where
  | host
  | engine
  deriving DecidableEq, Repr

/-- What the engine answers to one host transaction (R42, R57). -/
inductive Response where
  /-- `RegRead` returned this word on `bus_rdata`. -/
  | value (w : Word)
  /-- `RegWrite` returned nothing. -/
  | writeDone
  /-- A read got `bus_error`; `bus_rdata` held this word (0 by R57). -/
  | readError (rdata : Word)
  /-- A write got `bus_error`. -/
  | writeError
  /-- The engine had no state to answer from: its power was removed and no reset has followed (U16
  "stuck"). It stands for no value on `bus_rdata` and none on `bus_error`. MODEL'S OWN (log 8). -/
  | unanswered
  deriving DecidableEq, Repr

/-- The complete architectural state of the engine, the tuple of R40 in its order. -/
structure Engine where
  /-- `IV[0..7]` (R20). -/
  iv        : IvFile
  /-- `MASK[0..63]`, the chaining state (R21, R36). -/
  mask      : Block
  /-- `DATA[0..63]`, the block being transformed (R22). -/
  data      : Block
  /-- `CTRL.IE` (R26). -/
  ie        : Bool
  /-- `STATUS.BUSY` (R29). -/
  busy      : Bool
  /-- `STATUS.DONE` (R30). -/
  done      : Bool
  /-- `STATUS.ERR` (R31). -/
  err       : Bool
  /-- `STATUS.MASK_VALID` (R32). -/
  maskValid : Bool
  /-- `STATUS.ERRCODE` (R33). -/
  errcode   : BitVec 4
  /-- `PENDING` (R35). -/
  pending   : Option Instr
  deriving DecidableEq, Repr, Inhabited

end Sys2Proof.Machine

/-- The engine's state component by component at the `n`-th event after its power was removed and
before a reset: no state is guaranteed (R143, U16; log 8). FREE VALUE: nothing constrains it, not
even the invariants of R40, and two events have different indices and need not agree. -/
opaque Sys2Proof.Config.lostEngine : Nat → Sys2Proof.Machine.Engine

namespace Sys2Proof.Machine

/-- The machine: the engine's state, and the model's own record of the total order of events
(R63) and of the host's side of the bus. -/
structure State extends Engine where
  /-- Whose event the step carries out. MODEL'S OWN (log 1). -/
  turn      : Agent
  /-- The coming events of R63's total order, as far as they are laid down. MODEL'S OWN (log 1). -/
  schedule  : List Agent
  /-- What the outside still presents, in order (R42, R74). MODEL'S OWN (log 2). -/
  inputs    : List Input
  /-- The engine's answers, newest first: the host's side of R42. MODEL'S OWN (log 9). -/
  received  : List Response
  /-- Index of the next free value of R51 or R143. MODEL'S OWN (log 3, log 8). -/
  draws     : Nat
  /-- Power was removed and no reset has followed (R143, U16). MODEL'S OWN (log 8). -/
  powerLost : Bool
  deriving DecidableEq, Repr

/-- Why the machine stops with a fault. -/
inductive Fault where
  /-- A host whose run stops on a bus error received one (R57, R157, U6). Raised by the transaction
  of a `stop` input that R56 rejects. Safe: U6 treats it as a fault, and a host that goes on uses
  `handle`. -/
  | busError
  deriving DecidableEq, Repr

/-- Why the machine refuses. -/
inductive Refusal where
  /-- The instruction has no meaning in this model yet. Raised only by exec's arms; no arm raises it
  now. Safe: nothing can be proved of a step that is refused. -/
  | notModelled (mnemonic : String)
  deriving DecidableEq, Repr

/-- The engine's state after reset (R39). -/
def Engine.reset : Engine where
  iv        := Vector.replicate 8 0
  mask      := Vector.replicate 64 0
  data      := Vector.replicate 64 0
  ie        := false
  busy      := false
  done      := false
  err       := false
  maskValid := false
  errcode   := 0
  pending   := none

/-- The machine right after reset (R39, R145): the engine idle, nothing presented yet. The values of
the model's own fields are DESIGN CHOICES (log 2). -/
def State.reset : State where
  toEngine  := Engine.reset
  turn      := .host
  schedule  := []
  inputs    := []
  received  := []
  draws     := 0
  powerLost := false

/-- The outcome of one event. -/
abbrev Outcome := Host.Outcome State Fault Refusal

end Sys2Proof.Machine
end

