-- ==== Sys2Proof/Machine/Flags.lean ====
section
/-! DEFINITION. The words of STATUS and CTRL and the interrupt output (10_state.md R26, R28, R38;
60_exceptions.md R133). No command computes a flag from data (R34). -/

namespace Sys2Proof.Machine

/-- One bit at position `k` of a word. -/
def bitAt (b : Bool) (k : Nat) : Word := (BitVec.ofBool b).setWidth 32 <<< k

/-- The word a read of STATUS returns (R28, R46). -/
def Engine.statusWord (e : Engine) : Word :=
  bitAt e.busy 0 ||| bitAt e.done 1 ||| bitAt e.err 2 ||| bitAt e.maskValid 3 |||
    (e.errcode.setWidth 32 <<< 8)

/-- The word a read of CTRL returns (R26, R46). -/
def Engine.ctrlWord (e : Engine) : Word := bitAt e.ie 0

/-- The interrupt output, a function of the state (R38, R133). -/
def Engine.irq (e : Engine) : Bool := e.ie && (e.done || e.err)

end Sys2Proof.Machine
end

