-- ==== Sys2Proof/Machine/Operands.lean ====
section
/-! DEFINITION. The register map (20_memory.md R45), the word each register reads as (R46), and the
physical window (R43). The commands' own operands are implicit (30_encoding.md R70). -/

namespace Sys2Proof.Machine

/-- The registers of the window (R45). -/
inductive Reg where
  | id
  | ctrl
  | status
  | cmd
  | iv (i : Fin 8)
  | mask (i : Fin 64)
  | data (i : Fin 64)
  | reserved
  deriving DecidableEq, Repr

/-- The constant of ID (R25). -/
def idWord : Word := 0x50435259

/-- The register at word `w` of the window: offset `4 * w` (R45). -/
def regAtWord (w : Nat) : Reg :=
  if w = 0 then .id
  else if w = 1 then .ctrl
  else if w = 2 then .status
  else if w = 3 then .cmd
  else if h : 8 ≤ w ∧ w < 16 then .iv ⟨w - 8, by omega⟩
  else if h : 64 ≤ w ∧ w < 128 then .mask ⟨w - 64, by omega⟩
  else if h : 128 ≤ w ∧ w < 192 then .data ⟨w - 128, by omega⟩
  else .reserved

/-- The register at a byte offset of the window; used at multiples of 4 only (R45, R56). -/
def regAt (off : BitVec 10) : Reg := regAtWord (off.toNat / 4)

/-- The offset of a named register (R45); a reserved register has no one offset, 0x010 stands for it. -/
def Reg.offset (r : Reg) : BitVec 10 :=
  match r with
  | .id => 0x000
  | .ctrl => 0x004
  | .status => 0x008
  | .cmd => 0x00C
  | .iv i => BitVec.ofNat 10 (0x020 + 4 * i.val)
  | .mask i => BitVec.ofNat 10 (0x100 + 4 * i.val)
  | .data i => BitVec.ofNat 10 (0x200 + 4 * i.val)
  | .reserved => 0x010

/-- The register belongs to one of the files IV, MASK, DATA, whose reads are unspecified while
`BUSY = 1` (R51). -/
def Reg.inFile (r : Reg) : Bool :=
  match r with
  | .iv _ | .mask _ | .data _ => true
  | .id | .ctrl | .status | .cmd | .reserved => false

/-- The word a register holds: what a read returns while `BUSY = 0` (R46). -/
def Engine.readReg (e : Engine) (r : Reg) : Word :=
  match r with
  | .id => idWord
  | .ctrl => e.ctrlWord
  | .status => e.statusWord
  | .cmd => 0
  | .iv i => e.iv[i]
  | .mask i => e.mask[i]
  | .data i => e.data[i]
  | .reserved => 0

/-- The offset in the window of a physical address, if it lies in the window (R43). -/
def windowOffset (pa : Nat) : Option (BitVec 10) :=
  if Config.engineBase ≤ pa ∧ pa < Config.engineBase + 0x400 then
    some (BitVec.ofNat 10 (pa - Config.engineBase))
  else none

end Sys2Proof.Machine
end

