-- ==== Sys2Proof/Machine/Ops.lean ====
section
/-! DEFINITION. The named operations every meaning is written over: recording an engine error and
acknowledging it (60_exceptions.md R129, 20_memory.md R48), the command lifecycle (43_control.md
R102, R103), the order of events (20_memory.md R63) and reset (70_reset_and_hazards.md R144). -/

namespace Sys2Proof.Machine

/-- The register file whose word `i` is `f i`: how the rules write a whole file (R15). -/
def tabulate (n : Nat) (f : Fin n → Word) : Vector Word n := ⟨⟨List.ofFn f⟩, by simp⟩

/-- `raise CmdError(code)` (R129): the one way an engine error is recorded. It is no trap (R127): no
control is transferred and nothing else is saved. The first code since ERR was cleared is kept. -/
def Engine.cmdError (code : BitVec 4) (e : Engine) : Engine :=
  { e with errcode := if e.err then e.errcode else code, err := true }

/-- A write to STATUS (R48): the acknowledgement of a completion (bit 1) and of an error (bit 2),
which is all the return from an error there is (R136). -/
def Engine.writeStatus (v : Word) (e : Engine) : Engine :=
  { e with
    done    := e.done && !v.getLsbD 1
    err     := e.err && !v.getLsbD 2
    errcode := if v.getLsbD 2 then 0 else e.errcode }

/-- Error code 1, `ILLEGAL_CMD` (R128). -/
def codeIllegal : BitVec 4 := 1

/-- Error code 2, `BUSY` (R128). -/
def codeBusy : BitVec 4 := 2

/-- Error code 3, `MASK_INVALID` (R128). -/
def codeMaskInvalid : BitVec 4 := 3

/-- `raise CmdError(code)` on the machine. -/
def State.cmdError (code : BitVec 4) (s : State) : State :=
  { s with toEngine := s.toEngine.cmdError code }

/-- A legal command word written to CMD (R102, R130): rejected with code 2 while busy, with code 3 if
it needs a chaining state and there is none, else accepted. -/
def State.issue (i : Instr) (needsMask : Bool) (s : State) : State :=
  if s.busy then s.cmdError codeBusy
  else if needsMask && !s.maskValid then s.cmdError codeMaskInvalid
  else { s with pending := some i, busy := true, done := false }

/-- An illegal word written to CMD (R73, R102, R130). -/
def State.rejectIllegal (s : State) : State :=
  if s.busy then s.cmdError codeBusy else s.cmdError codeIllegal

/-- The engine step of R103: the command's effect on the values from before the step, then
`PENDING <- none`, `BUSY <- 0`, `DONE <- 1`, all as one update (R16); the
sub-units' own storage is invisible (R37; log 17). -/
def State.complete (effect : Engine → Engine) (s : State) : State :=
  { s with toEngine := { effect s.toEngine with pending := none, busy := false, done := true } }

/-- Command `i` in one event: at the host's event it is the word written to CMD (R102), at the
engine's event it is the completion, enabled iff `i` is the pending command (R103). At an engine
event in which `i` is not pending the engine has no step for it (log 12). -/
def State.lifecycle (i : Instr) (needsMask : Bool) (effect : Engine → Engine) (s : State) : Outcome :=
  match s.turn with
  | .host => .next (s.issue i needsMask)
  | .engine => .next (if s.busy = true ∧ s.pending = some i then s.complete effect else s)

/-- Whose event comes next in the total order of R63 (log 1): the head of the schedule; where no
order is laid down any more, the pending completion, else the host. -/
def State.mover (s : State) : Agent :=
  match s.schedule with
  | a :: _ => a
  | [] => if !s.powerLost && s.busy then .engine else .host

/-- The event of agent `a` begins. -/
def State.take (a : Agent) (s : State) : State :=
  { s with turn := a, schedule := s.schedule.tail }

/-- The engine answers the host's transaction (R42). -/
def State.answer (r : Response) (s : State) : State :=
  { s with received := r :: s.received }

/-- What a transaction presented at a reset edge is answered (R144): a read returns 0, and neither a
read nor a write gets a bus error (log 15). -/
def Access.resetResponse (a : Access) : Response :=
  if a.write then .writeDone else .value 0

/-- A rising edge with `rst_n = 0` (R144): every piece of the engine's state takes its value from
R39, a pending command is discarded, the transaction presented is ignored. -/
def State.resetEdge (presented : Option Access) (s : State) : State :=
  match presented with
  | none => { s with toEngine := Engine.reset, powerLost := false }
  | some a => ({ s with toEngine := Engine.reset, powerLost := false } : State).answer (Access.resetResponse a)

/-- One event of an engine that has no state (R143, U16; log 8): every component of R40 is a free
value, drawn afresh. -/
def State.withoutState (s : State) : State :=
  { s with toEngine := Config.lostEngine s.draws, draws := s.draws + 1 }

/-- The platform removes the power (R143, U16): no state survives, and none is guaranteed until
reset. -/
def State.losePower (s : State) : State := { s.withoutState with powerLost := true }

/-- A host statement reaches an engine that is stuck (U16; log 8): nothing acts on it and nothing
answers it. -/
def State.unanswered (s : State) : State := s.withoutState.answer .unanswered

/-- An event in which nothing happens: the engine keeps its state, if it has one. -/
def State.idle (s : State) : State := if s.powerLost then s.withoutState else s

end Sys2Proof.Machine
end

