-- ==== Sys2Proof/Machine/Bus.lean ====
section
/-! DEFINITION. The host's register transactions (20_memory.md R46 to R57), but for the write to CMD,
whose word is a command: Step.lean gives it to the decoder and to exec. -/

namespace Sys2Proof.Machine

/-- The only legal access: `bus_size = 2` and `bus_addr[1:0] = 0` (R56). -/
def accessLegal (a : Access) : Bool := a.size == 2 && a.addr.extractLsb' 0 2 == 0

/-- The answer to an access that R56 rejects (R57): `bus_error`, and `bus_rdata` 0 for a read. -/
def busErrorResponse (a : Access) : Response := if a.write then .writeError else .readError 0

/-- A read whose value is unspecified (R51): of IV, MASK or DATA while `BUSY = 1`. -/
def State.readIsFree (r : Reg) (s : State) : Bool := s.busy && r.inFile

/-- What `RegRead` returns (R46, R51). -/
def State.readValue (r : Reg) (s : State) : Word :=
  if s.readIsFree r then Config.busyRead s.draws else s.toEngine.readReg r

/-- `RegRead` (R46): the host gets the value; no state of the engine changes. Where the value is
free, the next one is drawn afresh (R51). -/
def State.regRead (r : Reg) (s : State) : State :=
  ({ s with draws := if s.readIsFree r then s.draws + 1 else s.draws } : State).answer
    (.value (s.readValue r))

/-- The engine's side of `RegWrite` to a register other than CMD (R47 to R52). A write to ID, MASK or
a reserved offset is ignored (R49); a write to IV or DATA while busy records code 2 (R52). The word
written to CMD goes to the decoder (Step.lean) and never comes here. -/
def Engine.writeReg (r : Reg) (v : Word) (e : Engine) : Engine :=
  match r with
  | .ctrl => { e with ie := v.getLsbD 0 }
  | .status => e.writeStatus v
  | .iv i => if e.busy then e.cmdError codeBusy else { e with iv := e.iv.set i v }
  | .data i => if e.busy then e.cmdError codeBusy else { e with data := e.data.set i v }
  | .id | .mask _ | .reserved | .cmd => e

/-- `RegWrite` to a register other than CMD (R47). -/
def State.regWrite (r : Reg) (v : Word) (s : State) : State :=
  ({ s with toEngine := s.toEngine.writeReg r v } : State).answer .writeDone

/-- `WAIT` (R75): read STATUS; while bit 0 of the value read is 1, the statement is repeated. The
values read are used up by the loop (log 9). -/
def State.waitStep (s : State) : State :=
  if (s.readValue .status).getLsbD 0 then { s with inputs := .wait :: s.inputs } else s

end Sys2Proof.Machine
end

