-- ==== Sys2Proof/Machine/Permutation.lean ====
section
/-! DEFINITION. PERM and UNPERM (41_permutation.md). The permutation itself is the open parameter of
R84; the effects take it as an argument, so that a test double of 92_eei_decisions.md D20 can stand
in for it (R87). -/

namespace Sys2Proof.Machine

/-- The pseudocode of PERM (R89), under a permutation `perm`. -/
def permEffect (perm : Block → Block) (e : Engine) : Engine := { e with data := perm e.data }

/-- The pseudocode of UNPERM (R90), under an inverse permutation `unperm`. -/
def unpermEffect (unperm : Block → Block) (e : Engine) : Engine := { e with data := unperm e.data }

/-- PERM (R89): DATA through the permutation. -/
def execPerm (s : State) : Outcome := s.lifecycle .perm false (permEffect Config.perm)

/-- UNPERM (R90): DATA through the inverse permutation. -/
def execUnperm (s : State) : Outcome := s.lifecycle .unperm false (unpermEffect Config.unperm)

/-- Test double TD_ID (D20): not the real permutation. -/
def tdIdPerm (x : Block) : Block := x

/-- Test double TD_ID's inverse (D20). -/
def tdIdUnperm (x : Block) : Block := x

/-- Test double TD_LANE (D20): not the real permutation. -/
def tdLanePerm (x : Block) : Block := tabulate 64 fun i => x[(i.val + 1) % 64]'(by omega)

/-- Test double TD_LANE's inverse (D20). -/
def tdLaneUnperm (x : Block) : Block := tabulate 64 fun i => x[(i.val + 63) % 64]'(by omega)

/-- Test double TD_MIX (D20): not the real permutation. -/
def tdMixPerm (x : Block) : Block :=
  tabulate 64 fun i => (x[(i.val + 1) % 64]'(by omega)).rotateLeft 1

/-- Test double TD_MIX's inverse (D20). -/
def tdMixUnperm (x : Block) : Block :=
  tabulate 64 fun i => (x[(i.val + 63) % 64]'(by omega)).rotateRight 1

end Sys2Proof.Machine
end

