-- ==== Sys2Proof/Machine/Chaining.lean ====
section
/-! DEFINITION. The chainingmode_xor_mask_updater: ENCBLK, DECBLK and SETMASK (42_chaining.md). -/

namespace Sys2Proof.Machine

/-- `XORB` (R91): lane by lane. -/
def xorb (a b : Block) : Block := tabulate 64 fun i => a[i] ^^^ b[i]

/-- The pseudocode of ENCBLK (R95), under a permutation `perm`: the ciphertext goes to DATA and, as
the next block's mask, to MASK. -/
def encblkEffect (perm : Block → Block) (e : Engine) : Engine :=
  { e with data := perm (xorb e.data e.mask), mask := perm (xorb e.data e.mask) }

/-- The pseudocode of DECBLK (R96), under an inverse permutation `unperm`: the mask written is the
ciphertext as received, and every right-hand side reads the values from before (R16). -/
def decblkEffect (unperm : Block → Block) (e : Engine) : Engine :=
  { e with data := xorb (unperm e.data) e.mask, mask := e.data }

/-- The pseudocode of SETMASK (R97). -/
def setmaskEffect (e : Engine) : Engine := { e with mask := e.data, maskValid := true }

/-- ENCBLK (R95): accepted only with `MASK_VALID = 1`. -/
def execEncblk (s : State) : Outcome := s.lifecycle .encblk true (encblkEffect Config.perm)

/-- DECBLK (R96): accepted only with `MASK_VALID = 1`. -/
def execDecblk (s : State) : Outcome := s.lifecycle .decblk true (decblkEffect Config.unperm)

/-- SETMASK (R97): the chaining state from DATA. -/
def execSetmask (s : State) : Outcome := s.lifecycle .setmask false setmaskEffect

end Sys2Proof.Machine
end

