-- ==== Sys2Proof/Machine/Control.lean ====
section
/-! DEFINITION. NOP and CLEAR (43_control.md). -/

namespace Sys2Proof.Machine

/-- The pseudocode of NOP (R107): nothing; only the lifecycle applies. -/
def nopEffect (e : Engine) : Engine := e

/-- The pseudocode of CLEAR (R108): IV, MASK and DATA zero, no chaining state. -/
def clearEffect (e : Engine) : Engine :=
  { e with
    iv        := Vector.replicate 8 0
    mask      := Vector.replicate 64 0
    data      := Vector.replicate 64 0
    maskValid := false }

/-- NOP (R107). -/
def execNop (s : State) : Outcome := s.lifecycle .nop false nopEffect

/-- CLEAR (R108). -/
def execClear (s : State) : Outcome := s.lifecycle .clear false clearEffect

end Sys2Proof.Machine
end

