-- ==== Sys2Proof/Machine/KeySchedule.lean ====
section
/-! DEFINITION. The key_schedule_expander and KEYSCHED (40_key_schedule.md), and the byte view of a
register file it needs (00_scope.md R13, R14). -/

namespace Sys2Proof.Machine

/-- `rotl8(b, r)` (R14): circular left rotation of a byte; the width of `bits8` is the `AND 0xFF`. -/
def rotl8 (b : Byte) (r : Nat) : Byte :=
  if r = 0 then b else (b <<< r) ||| (b >>> (8 - r))

/-- Byte lane `j` of a word: bits `8j+7 : 8j` (R13, R53). -/
def byteLane (x : Word) (j : Nat) : Byte := x.extractLsb' (8 * j) 8

/-- The word of four bytes, the first the least significant (R13, R53). -/
def leWord (b0 b1 b2 b3 : Byte) : Word := b3 ++ b2 ++ b1 ++ b0

/-- `rotb(x, r)` (R14): `rotl8` in each byte lane; no bit crosses from one byte into another (R79). -/
def rotb (x : Word) (r : Nat) : Word :=
  leWord (rotl8 (byteLane x 0) r) (rotl8 (byteLane x 1) r)
    (rotl8 (byteLane x 2) r) (rotl8 (byteLane x 3) r)

/-- `KSW` (R78): mask word `w` is IV word `w mod 8` with each byte rotated by `w div 8`. -/
def ksw (iv : IvFile) : Block :=
  tabulate 64 fun w => rotb (iv[w.val % 8]'(by omega)) (w.val / 8)

/-- The pseudocode of KEYSCHED (R82). -/
def keyschedEffect (e : Engine) : Engine := { e with mask := ksw e.iv, maskValid := true }

/-- KEYSCHED (R82): MASK from the IV. -/
def execKeysched (s : State) : Outcome := s.lifecycle .keysched false keyschedEffect

end Sys2Proof.Machine
end

