-- ==== Sys2Proof/Machine/Dispatch.lean ====
section
/-! DEFINITION. `exec`: one arm per command (43_control.md R104). -/

namespace Sys2Proof.Machine

def exec (i : Instr) (s : State) : Host.Outcome State Fault Refusal :=
  match i with
  | .nop => Sys2Proof.Machine.execNop s
  | .keysched => Sys2Proof.Machine.execKeysched s
  | .encblk => Sys2Proof.Machine.execEncblk s
  | .decblk => Sys2Proof.Machine.execDecblk s
  | .perm => Sys2Proof.Machine.execPerm s
  | .unperm => Sys2Proof.Machine.execUnperm s
  | .setmask => Sys2Proof.Machine.execSetmask s
  | .clear => Sys2Proof.Machine.execClear s

end Sys2Proof.Machine
end

