-- ==== Sys2Proof/Machine/Step.lean ====
section
/-! DEFINITION. One step: one event of the total order of 20_memory.md R63. A host event is one
transaction of the input list, an engine event is the completion of the pending command. -/

namespace Sys2Proof.Machine

/-- A word written to CMD (R102): decoded and carried out, or rejected as illegal. -/
def issueWord (v : Word) (s : State) : Outcome :=
  match decode v with
  | .ok i => exec i s
  | .error _ => .next s.rejectIllegal

/-- A legal access (R46, R47). -/
def legalAccess (a : Access) (s : State) : Outcome :=
  if a.write then
    if regAt a.addr = .cmd then issueWord a.wdata (s.answer .writeDone)
    else .next (s.regWrite (regAt a.addr) a.wdata)
  else .next (s.regRead (regAt a.addr))

/-- A host transaction (R42): legal (R56), or answered with a bus error (R57), on which the host
stops or goes on (U6; log 11). -/
def transact (a : Access) (onError : OnBusError) (s : State) : Outcome :=
  if accessLegal a then legalAccess a s
  else
    match onError with
    | .stop => .fault .busError
    | .handle => .next (s.answer (busErrorResponse a))

/-- What the outside presents reaches the engine. While the power is lost the engine is stuck: only
a reset edge has an effect (R143, U16; log 8). -/
def present (inp : Input) (s : State) : Outcome :=
  match inp with
  | .access a onError => if s.powerLost then .next s.unanswered else transact a onError s
  | .wait => .next (if s.powerLost then s.unanswered else s.waitStep)
  | .resetEdge presented => .next (s.resetEdge presented)
  | .powerLoss => .next s.losePower

/-- The host's event (R42): the next input, or, where there is none, no transaction in this cycle
(R145: the engine waits for host transactions). -/
def hostStep (s : State) : Outcome :=
  match s.inputs with
  | [] => .next s.idle
  | inp :: rest => present inp { s with inputs := rest }

/-- The engine's event (R103): the completion of PENDING, enabled iff `BUSY = 1`; none while the
engine is stuck (U16). -/
def engineStep (s : State) : Outcome :=
  if s.powerLost then .next s.withoutState
  else
    match s.busy, s.pending with
    | true, some i => exec i s
    | _, _ => .next s

/-- One event of the total order (R63). -/
def step (s : State) : Host.Outcome State Fault Refusal :=
  match s.mover with
  | .host => hostStep (s.take .host)
  | .engine => engineStep (s.take .engine)

/-- The write of a word to CMD (R102) by a host that stops on a bus error. -/
def cmdWrite (v : Word) : Input := .access ⟨true, 0x00C, 2, v⟩ .stop

/-- `s` with the table's word as the very next command written to CMD: the engine fetches nothing
(R24), so this puts the CMD write at the head of the inputs and the host's event at the head of the
schedule, and restores the power (log 13). -/
def State.withFetchWord (s : State) (nbits w : Nat) : State :=
  { s with
    inputs    := cmdWrite (tableWord nbits w) :: s.inputs
    schedule  := .host :: s.schedule
    powerLost := false }

end Sys2Proof.Machine
end

