-- ==== Sys2Proof/Machine/Framing.lean ====
section
/-! DEFINITION. The host's software on top of the engine (44_host_framing.md) and the notation its
programs are written in (30_encoding.md R74, R75). The message functions are given twice: as pure
functions (R116) and as programs of inputs that drive the engine (R115, R118). -/

namespace Sys2Proof.Machine

/-- The byte view of a block (R13). -/
def blockBytes (b : Block) : List Byte :=
  b.toList.flatMap fun w => [byteLane w 0, byteLane w 1, byteLane w 2, byteLane w 3]

/-- The byte view of the IV register file (R13, R20). -/
def ivFileBytes (v : IvFile) : List Byte :=
  v.toList.flatMap fun w => [byteLane w 0, byteLane w 1, byteLane w 2, byteLane w 3]

/-- Word `i` of a byte sequence (R53). Bytes past the end read 0, which no rule uses (log 14). -/
def wordAt (s : List Byte) (i : Nat) : Word :=
  leWord (s.getD (4 * i) 0) (s.getD (4 * i + 1) 0) (s.getD (4 * i + 2) 0) (s.getD (4 * i + 3) 0)

/-- `words(s)` of R13 for a 256-byte sequence. -/
def blockOfBytes (s : List Byte) : Block := tabulate 64 fun i => wordAt s i.val

/-- `words(s)` of R13 for a 32-byte sequence. -/
def ivFileOfBytes (s : List Byte) : IvFile := tabulate 8 fun i => wordAt s i.val

/-- `KS` (R76) on bytes: output byte `32r + c` is IV byte `c` rotated by `r`. -/
def ksBytes (iv : List Byte) : List Byte :=
  (List.range 256).map fun k => rotl8 (iv.getD (k % 32) 0) (k / 32)

/-- The policy for a plaintext whose length is a multiple of 256 (R122, U5; log 10). -/
inductive PadPolicy where
  | compat
  | reject
  | zeroIs256
  deriving DecidableEq, Repr

/-- The failures of the host framing (R124). -/
inductive HostError where
  | invalidIvLength
  | malformedCiphertext
  | paddingOverflow
  deriving DecidableEq, Repr

/-- `padLen(L)` (R110). -/
def padLen (len : Nat) : Nat := 256 - len % 256

/-- The pad length marker (R111): a byte, 0 where the pad length is 256. -/
def padMarker (len : Nat) : Byte := BitVec.ofNat 8 (padLen len % 256)

/-- `PaddedBuffer(p)` (R111). -/
def paddedBuffer (p : List Byte) : List Byte :=
  p ++ (List.replicate (padLen p.length - 1) 0 ++ [padMarker p.length])

/-- `s[256k : 256k+256]` as a block (R115). -/
def blockAt (s : List Byte) (k : Nat) : Block := blockOfBytes ((s.drop (256 * k)).take 256)

/-- The blocks of a byte sequence whose length is a multiple of 256, in frame order (R152). -/
def blocksOf (s : List Byte) : List Block := (List.range (s.length / 256)).map (blockAt s)

/-- Encryption of a list of blocks from mask `m` (R98): each ciphertext is the next mask. -/
def encChain (perm : Block → Block) : Block → List Block → List Block
  | _, [] => []
  | m, p :: ps => perm (xorb p m) :: encChain perm (perm (xorb p m)) ps

/-- Decryption of a list of blocks from mask `m` (R98). -/
def decChain (unperm : Block → Block) : Block → List Block → List Block
  | _, [] => []
  | m, c :: cs => xorb (unperm c) m :: decChain unperm c cs

/-- `ENC(p, iv)` (R116). -/
def encFrame (perm : Block → Block) (p iv : List Byte) : List Byte :=
  iv ++ (encChain perm (ksw (ivFileOfBytes iv)) (blocksOf (paddedBuffer p))).flatMap blockBytes

/-- The checks of `encrypt` that touch no engine register (R114, R115). -/
def encryptCheck (policy : PadPolicy) (p iv : List Byte) : Except HostError Unit :=
  if iv.length ≠ 32 then .error .invalidIvLength
  else if policy = .reject ∧ p.length % 256 = 0 then .error .paddingOverflow
  else .ok ()

/-- `encrypt(p, iv)` (R115, R116). The IV is an argument: a free input when the caller supplies none
(R114, U13). -/
def encrypt (policy : PadPolicy) (perm : Block → Block) (p iv : List Byte) :
    Except HostError (List Byte) :=
  match encryptCheck policy p iv with
  | .error e => .error e
  | .ok _ => .ok (encFrame perm p iv)

/-- The pad length read from a marker (R119, R122). -/
def padLenOfMarker (policy : PadPolicy) (m : Byte) : Except HostError Nat :=
  match policy with
  | .compat => .ok m.toNat
  | .zeroIs256 => .ok (if m = 0 then 256 else m.toNat)
  | .reject => if m = 0 then .error .paddingOverflow else .ok m.toNat

/-- `unpad(out)` (R119); the padding bytes are not checked (R120). -/
def unpad (policy : PadPolicy) (out : List Byte) : Except HostError (List Byte) :=
  match padLenOfMarker policy (out.getLastD 0) with
  | .error e => .error e
  | .ok n => if n > out.length then .error .paddingOverflow else .ok (out.take (out.length - n))

/-- The length check of `decrypt` (R117). -/
def decryptCheck (c : List Byte) : Except HostError Unit :=
  if c.length < 32 + 256 ∨ (c.length - 32) % 256 ≠ 0 then .error .malformedCiphertext else .ok ()

/-- The decrypted body of a frame, before `unpad` (R118). -/
def decBody (unperm : Block → Block) (c : List Byte) : List Byte :=
  (decChain unperm (ksw (ivFileOfBytes (c.take 32))) (blocksOf (c.drop 32))).flatMap blockBytes

/-- `decrypt(c)` (R118). -/
def decrypt (policy : PadPolicy) (unperm : Block → Block) (c : List Byte) :
    Except HostError (List Byte) :=
  match decryptCheck c with
  | .error e => .error e
  | .ok _ => unpad policy (decBody unperm c)

/-- `WR off, v` (R74). -/
def wr (off : BitVec 10) (v : Word) : Input := .access ⟨true, off, 2, v⟩ .stop

/-- `RD off` (R74). -/
def rd (off : BitVec 10) : Input := .access ⟨false, off, 2, 0⟩ .stop

/-- A command mnemonic (R74): issue the command, without waiting. -/
def cmd (i : Instr) : Input := wr 0x00C (encode i)

/-- `RUN m` (R75). -/
def run (i : Instr) : List Input := [cmd i, .wait]

/-- `LDIV` (R75). -/
def ldiv (iv : List Byte) : List Input :=
  (List.range 8).map fun i => wr (BitVec.ofNat 10 (0x020 + 4 * i)) (wordAt iv i)

/-- The 64 writes of a block to DATA (R75). -/
def ldblock (b : Block) : List Input :=
  (List.finRange 64).map fun i => wr (Reg.offset (.data i)) b[i]

/-- `LDBLK` (R75). -/
def ldblk (s : List Byte) : List Input := ldblock (blockOfBytes s)

/-- `STBLK` (R75): the 64 reads; the bytes are unpacked from the answers by `answerBytes`. -/
def stblk : List Input := (List.finRange 64).map fun i => rd (Reg.offset (.data i))

/-- `RDMASK` (R75). -/
def rdmask : List Input := (List.finRange 64).map fun i => rd (Reg.offset (.mask i))

/-- `ACKDONE` (R75). -/
def ackdone : Input := wr 0x008 0x00000002

/-- `ACKERR` (R75). -/
def ackerr : Input := wr 0x008 0x00000004

/-- `IEN` (R75). -/
def ien : Input := wr 0x004 0x00000001

/-- `IDIS` (R75). -/
def idis : Input := wr 0x004 0x00000000

/-- The words the host's reads returned, oldest first, from the answers, newest first. -/
def answerWords (received : List Response) : List Word :=
  received.reverse.filterMap fun r =>
    match r with
    | .value w => some w
    | .writeDone | .readError _ | .writeError | .unanswered => none

/-- The bytes of the words the host's reads returned, little-endian (R75 `STBLK`). -/
def answerBytes (received : List Response) : List Byte :=
  (answerWords received).flatMap fun w => [byteLane w 0, byteLane w 1, byteLane w 2, byteLane w 3]

/-- One block through one command and back (R115 step 5, R118 step 3). -/
def blockProgram (i : Instr) (b : Block) : List Input := ldblock b ++ run i ++ stblk

/-- The engine program of `encrypt` (R115), after its checks. -/
def encryptProgram (p iv : List Byte) : List Input :=
  ldiv iv ++ run .keysched ++ (blocksOf (paddedBuffer p)).flatMap (blockProgram .encblk)

/-- The engine program of `decrypt` (R118), after its length check. -/
def decryptProgram (c : List Byte) : List Input :=
  ldiv (c.take 32) ++ run .keysched ++ (blocksOf (c.drop 32)).flatMap (blockProgram .decblk)

/-- A call of `encrypt` as the host makes it (R114, R115): what it presents to the engine, or the
failure, in which case it presents nothing and touches no engine register. -/
def encryptCall (policy : PadPolicy) (p iv : List Byte) : Except HostError (List Input) :=
  match encryptCheck policy p iv with
  | .error e => .error e
  | .ok _ => .ok (encryptProgram p iv)

/-- A call of `decrypt` as the host makes it (R117, R118). -/
def decryptCall (c : List Byte) : Except HostError (List Input) :=
  match decryptCheck c with
  | .error e => .error e
  | .ok _ => .ok (decryptProgram c)

/-- What `encrypt` returns from the answers its program got: `iv` and then the blocks (R115). -/
def encryptResult (iv : List Byte) (received : List Response) : List Byte :=
  iv ++ answerBytes received

/-- What `decrypt` returns from the answers its program got (R118, R119). -/
def decryptResult (policy : PadPolicy) (received : List Response) : Except HostError (List Byte) :=
  unpad policy (answerBytes received)

/-- Save a stream's chaining state (R126): the 64 words are the answers. -/
def saveProgram : List Input := .wait :: rdmask

/-- Restore a saved chaining state (R126). -/
def restoreProgram (m : Block) : List Input := ldblock m ++ run .setmask

/-- Decrypt block `c` alone, given the block before it (R100). -/
def decryptAloneProgram (previous c : Block) : List Input :=
  restoreProgram previous ++ blockProgram .decblk c

/-- `MemRead(ENGINE_BASE + off, 4)` (R15, R43): the host's read at a physical address of the window. -/
def memRead (pa : Nat) : Option Input := (windowOffset pa).map rd

/-- `MemWrite(ENGINE_BASE + off, 4, v)` (R15, R43). -/
def memWrite (pa : Nat) (v : Word) : Option Input := (windowOffset pa).map fun off => wr off v

end Sys2Proof.Machine
end

