-- ==== Sys2Proof/Safety.lean ====
section
/-! DEFINITION. The terms claims about runs are stated in: the invariants of 10_state.md R40, the
hazards of 70_reset_and_hazards.md R147, and the end of a run (R157). -/

namespace Sys2Proof.Machine

/-- The invariants of R40: `BUSY = 1` iff a command is pending; no error, no code; code at most 3. -/
structure Engine.Inv (e : Engine) : Prop where
  busy_iff_pending : e.busy = true ↔ e.pending ≠ none
  code_zero_of_no_error : e.err = false → e.errcode = 0
  code_le_three : e.errcode.toNat ≤ 3

/-- Before a pending block command completes there is a chaining state: its issue was accepted with
`MASK_VALID = 1` (R102), and nothing clears it while the command is pending (R32). -/
def Engine.MaskForBlock (e : Engine) : Prop :=
  (e.pending = some .encblk ∨ e.pending = some .decblk) → e.maskValid = true

/-- The invariants of R40 hold of a machine that has a state: an engine whose power was removed has
none until reset (R143; log 8). -/
def State.Inv (s : State) : Prop := s.powerLost = false → s.toEngine.Inv

/-- `Engine.MaskForBlock` of a machine that has a state (R143; log 8). -/
def State.MaskForBlock (s : State) : Prop := s.powerLost = false → s.toEngine.MaskForBlock

/-- The engine is idle and powered (R145). -/
def State.Idle (s : State) : Prop := s.busy = false ∧ s.pending = none ∧ s.powerLost = false

/-- `t` is reached from `s` by steps of the machine. -/
inductive Reaches : State → State → Prop where
  | refl (s : State) : Reaches s s
  | tail {s t u : State} : Reaches s t → step t = .next u → Reaches s u

/-- A run has ended (R157): the host has executed its last statement and `BUSY = 0`. A run that
faulted (U6) has no state at all. R157 does not say whether a run has ended in which the power was
removed and no reset has followed; that it has NOT is the model's choice (DESIGN CHOICE, log 18): the
engine has no `BUSY` then (R143, U16). -/
def State.Final (s : State) : Prop := s.inputs = [] ∧ s.busy = false ∧ s.powerLost = false

/-- The input keeps the hazard rule R147 in the state: while `BUSY = 1`, no write to CMD, IV or DATA
and no read of IV, MASK or DATA. -/
def HostRespects (s : State) (inp : Input) : Prop :=
  match inp with
  | .access a _ =>
      s.busy = true →
        (a.write = true → regAt a.addr ≠ .cmd ∧
          (∀ i, regAt a.addr ≠ .iv i) ∧ (∀ i, regAt a.addr ≠ .data i)) ∧
        (a.write = false → (regAt a.addr).inFile = false)
  | .wait => True
  | .resetEdge _ => True
  | .powerLoss => True

/-- The next event is the host's, the engine has power, and `inp` is what is presented. -/
def State.HostNext (s : State) (inp : Input) (rest : List Input) : Prop :=
  s.mover = .host ∧ s.powerLost = false ∧ s.inputs = inp :: rest

/-- The next event is the engine's and the engine has power. -/
def State.EngineNext (s : State) : Prop := s.mover = .engine ∧ s.powerLost = false

/-- The state in which the head input is acted on: its event has begun and it is no longer to come. -/
def State.afterInput (s : State) (rest : List Input) : State :=
  { s.take .host with inputs := rest }

/-- Command `i` is pending and the event is the engine's: where R103 completes it. -/
def State.AtCompletion (i : Instr) (s : State) : Prop :=
  s.turn = .engine ∧ s.busy = true ∧ s.pending = some i

/-- The offsets that R50 lists as reserved, at multiples of 4. -/
def ReservedOffset (off : Nat) : Prop :=
  off % 4 = 0 ∧ ((0x010 ≤ off ∧ off ≤ 0x01C) ∨ (0x040 ≤ off ∧ off ≤ 0x0FC) ∨ (0x300 ≤ off ∧ off ≤ 0x3FC))

/-- The state with a recorded error (R129): the first code since ERR was cleared is kept. -/
def State.withError (s : State) (code : BitVec 4) : State :=
  { s with err := true, errcode := if s.err = true then s.errcode else code }

end Sys2Proof.Machine
end

