-- ==== Sys2Proof/Certificates/Slice0/Obligations.lean ====
section
/-! DEFINITION. The statements for the provers, from the numbered rules of spec/. -/

open Sys2Proof Sys2Proof.Machine

/-! ### Encoding (30_encoding.md) -/

/-- A few command words written out from R71 and R72 decode as the rules say (sanity). -/
def Obligations.SpecWordsDecode : Prop :=
  decode 0x00000000 = .ok .nop ∧ decode 0x00000001 = .ok .keysched ∧
  decode 0x00000002 = .ok .encblk ∧ decode 0x00000005 = .ok .unperm ∧
  decode 0x00000007 = .ok .clear ∧ decode 0x00000008 = .error .reservedOp ∧
  decode 0x00000010 = .error .mbzNotZero

/-- R72, R73: the decoder accepts exactly the words with `MBZ = 0` and `OP ≤ 7`, and names why it
rejects any other; exactly 8 of the 2^32 words decode. -/
def Obligations.DecoderAcceptsExactlyEightWords : Prop :=
  (∀ v : Word,
    (v.toNat / 16 ≠ 0 → decode v = .error .mbzNotZero) ∧
    (v.toNat / 16 = 0 → 8 ≤ v.toNat % 16 → decode v = .error .reservedOp) ∧
    (v.toNat / 16 = 0 → v.toNat % 16 ≤ 7 →
      ∃ i, decode v = .ok i ∧ (opOfInstr i).toNat = v.toNat % 16)) ∧
  Set.ncard {v : Word | ∃ i, decode v = .ok i} = 8

/-- R71, R72: decode and encode agree in both directions, for every command and every word. -/
def Obligations.DecodeEncodeAgree : Prop :=
  (∀ i : Instr, i.wellFormed = true → decode (encode i) = .ok i) ∧
  (∀ (v : Word) (i : Instr), decode v = .ok i → v = encode i)

/-- R56, R68, R72: the machine's decoder and its test of an access agree with the checks of
WellFormed.lean on every word and every access. -/
def Obligations.ChecksAgreeWithMachine : Prop :=
  (∀ v : Word, CmdWord.wellFormed v = true ↔ ∃ i, decode v = .ok i) ∧
  (∀ a : Access, a.wellFormed = accessLegal a)

/-! ### Steps (R42, R63, R102, R103) -/

/-- A step that presents a CMD write of a word that decodes to `i` is `exec` of `i`, at the state in
which the input is consumed and the write answered; and the same through `withFetchWord`, which is
the model's own (log 13). -/
def Obligations.StepRunsDecodedCommand : Prop :=
  (∀ (s : State) (rest : List Input) (v : Word) (onError : OnBusError) (i : Instr),
    s.HostNext (.access ⟨true, 0x00C, 2, v⟩ onError) rest → decode v = .ok i →
    step s = exec i ((s.afterInput rest).answer .writeDone)) ∧
  (∀ (s : State) (w : Nat) (i : Instr), decodeTableWord 32 w = some i →
    step (s.withFetchWord 32 w) =
      exec i { s with turn := .host, powerLost := false, received := .writeDone :: s.received })

/-- R103: at the engine's event a step is `exec` of the pending command; while `BUSY = 0` the engine
has no step. -/
def Obligations.StepCompletesPending : Prop :=
  ∀ s : State, s.EngineNext →
    (∀ i, s.busy = true → s.pending = some i → step s = exec i (s.take .engine)) ∧
    (s.busy = false → step s = .next (s.take .engine))

/-- R102: the whole procedure of a CMD write, for every word in every state. -/
def Obligations.CmdWriteFollowsAcceptanceRule : Prop :=
  ∀ (s : State) (rest : List Input) (v : Word) (onError : OnBusError),
    s.HostNext (.access ⟨true, 0x00C, 2, v⟩ onError) rest →
    step s = .next (
      let u := (s.afterInput rest).answer .writeDone
      if s.busy = true then u.withError 2
      else
        match decode v with
        | .error _ => u.withError 1
        | .ok i =>
          if (i = .encblk ∨ i = .decblk) ∧ s.maskValid = false then u.withError 3
          else { u with pending := some i, busy := true, done := false })

/-- R73: while idle, a word with a reserved `OP` or a nonzero `MBZ` is rejected with code 1; while
busy, every CMD write records code 2, whatever its value. Nothing else of the engine changes. -/
def Obligations.IllegalWordIsRejected : Prop :=
  ∀ (s : State) (rest : List Input) (v : Word) (onError : OnBusError),
    s.HostNext (.access ⟨true, 0x00C, 2, v⟩ onError) rest →
    (s.busy = false → (v.toNat / 16 ≠ 0 ∨ 8 ≤ v.toNat % 16) →
      step s = .next (((s.afterInput rest).answer .writeDone).withError 1)) ∧
    (s.busy = true → step s = .next (((s.afterInput rest).answer .writeDone).withError 2))

/-- R102, at the level of one command: what each of the eight does at the host's event. -/
def Obligations.CommandIssue : Prop :=
  ∀ (i : Instr) (s : State), s.turn = .host →
    (s.busy = true → exec i s = .next (s.withError 2)) ∧
    (s.busy = false → (i = .encblk ∨ i = .decblk) → s.maskValid = false →
      exec i s = .next (s.withError 3)) ∧
    (s.busy = false → ((i = .encblk ∨ i = .decblk) → s.maskValid = true) →
      exec i s = .next { s with pending := some i, busy := true, done := false })

/-! ### What each command does at its completion (R104) -/

/-- R107: NOP changes nothing but PENDING, BUSY and DONE. -/
def Obligations.NopCompletes : Prop :=
  ∀ s : State, s.AtCompletion .nop →
    exec .nop s = .next { s with pending := none, busy := false, done := true }

/-- R82: KEYSCHED writes `rotb(IV[w mod 8], w div 8)` to every MASK word and sets MASK_VALID, and
changes nothing else but PENDING, BUSY and DONE. -/
def Obligations.KeyschedCompletes : Prop :=
  ∀ s : State, s.AtCompletion .keysched →
    ∃ m : Block, (∀ w : Fin 64, m[w] = rotb (s.iv[w.val % 8]'(by omega)) (w.val / 8)) ∧
      exec .keysched s =
        .next { s with mask := m, maskValid := true, pending := none, busy := false, done := true }

/-- R95: ENCBLK writes `PERM(DATA xor MASK)` to DATA and to MASK. -/
def Obligations.EncblkCompletes : Prop :=
  ∀ s : State, s.AtCompletion .encblk →
    ∃ x : Block, (∀ j : Fin 64, x[j] = s.data[j] ^^^ s.mask[j]) ∧
      exec .encblk s = .next { s with
        data := Config.perm x, mask := Config.perm x, pending := none, busy := false, done := true }

/-- R96: DECBLK writes `UNPERM(DATA) xor MASK` to DATA and the DATA from before to MASK. -/
def Obligations.DecblkCompletes : Prop :=
  ∀ s : State, s.AtCompletion .decblk →
    ∃ q : Block, (∀ j : Fin 64, q[j] = (Config.unperm s.data)[j] ^^^ s.mask[j]) ∧
      exec .decblk s = .next { s with
        data := q, mask := s.data, pending := none, busy := false, done := true }

/-- R89 and R90: PERM and UNPERM change DATA alone, besides PENDING, BUSY and DONE. -/
def Obligations.PermAndUnpermComplete : Prop :=
  (∀ s : State, s.AtCompletion .perm →
    exec .perm s = .next { s with
      data := Config.perm s.data, pending := none, busy := false, done := true }) ∧
  (∀ s : State, s.AtCompletion .unperm →
    exec .unperm s = .next { s with
      data := Config.unperm s.data, pending := none, busy := false, done := true })

/-- R97: SETMASK copies DATA into MASK and sets MASK_VALID. -/
def Obligations.SetmaskCompletes : Prop :=
  ∀ s : State, s.AtCompletion .setmask →
    exec .setmask s = .next { s with
      mask := s.data, maskValid := true, pending := none, busy := false, done := true }

/-- R108: CLEAR zeroes IV, MASK and DATA and clears MASK_VALID; CTRL.IE, ERR and ERRCODE stay. -/
def Obligations.ClearCompletes : Prop :=
  ∀ s : State, s.AtCompletion .clear →
    ∃ t : State, exec .clear s = .next t ∧
      (∀ j : Fin 8, t.iv[j] = 0) ∧ (∀ j : Fin 64, t.mask[j] = 0 ∧ t.data[j] = 0) ∧
      t = { s with
        iv := t.iv, mask := t.mask, data := t.data, maskValid := false,
        pending := none, busy := false, done := true }

/-- R103, R128: once accepted, no command can fail, and its completion records no error. -/
def Obligations.CompletionNeverFails : Prop :=
  ∀ (s : State) (i : Instr), s.EngineNext → s.busy = true → s.pending = some i →
    ∃ t, step s = .next t ∧ t.err = s.err ∧ t.errcode = s.errcode ∧ t.ie = s.ie ∧
      t.busy = false ∧ t.done = true ∧ t.pending = none ∧
      t.received = s.received ∧ t.inputs = s.inputs ∧ t.draws = s.draws

/-! ### The register interface (20_memory.md) -/

/-- R46: what a legal read returns at every offset, idle and busy, and that it changes nothing of
the engine. While busy, IV, MASK and DATA give the next free value of R51 (its index is the model's
own, log 3; the statement holds for every value). -/
def Obligations.ReadReturnsRegister : Prop :=
  ∀ (s : State) (rest : List Input) (off : BitVec 10) (wdata : Word) (onError : OnBusError),
    s.HostNext (.access ⟨false, off, 2, wdata⟩ onError) rest → off.toNat % 4 = 0 →
    ∃ (v : Word) (d : Nat),
      step s = .next { s.afterInput rest with received := .value v :: s.received, draws := d } ∧
      (off = 0x000 → v = 0x50435259 ∧ d = s.draws) ∧
      (off = 0x004 → v = BitVec.ofNat 32 s.ie.toNat ∧ d = s.draws) ∧
      (off = 0x008 → v = BitVec.ofNat 32 (s.busy.toNat + 2 * s.done.toNat + 4 * s.err.toNat +
        8 * s.maskValid.toNat + 256 * s.errcode.toNat) ∧ d = s.draws) ∧
      (off = 0x00C → v = 0 ∧ d = s.draws) ∧
      (ReservedOffset off.toNat → v = 0 ∧ d = s.draws) ∧
      (s.busy = false →
        (∀ i : Fin 8, off.toNat = 0x020 + 4 * i.val → v = s.iv[i] ∧ d = s.draws) ∧
        (∀ i : Fin 64, off.toNat = 0x100 + 4 * i.val → v = s.mask[i] ∧ d = s.draws) ∧
        (∀ i : Fin 64, off.toNat = 0x200 + 4 * i.val → v = s.data[i] ∧ d = s.draws)) ∧
      (s.busy = true →
        ((∃ i : Fin 8, off.toNat = 0x020 + 4 * i.val) ∨
          (∃ i : Fin 64, off.toNat = 0x100 + 4 * i.val) ∨
          (∃ i : Fin 64, off.toNat = 0x200 + 4 * i.val)) →
        v = Config.busyRead s.draws ∧ d = s.draws + 1)

/-- R47, R49, R52: what a legal write does at every offset but CMD's. -/
def Obligations.WriteActsOnRegister : Prop :=
  ∀ (s : State) (rest : List Input) (off : BitVec 10) (v : Word) (onError : OnBusError),
    s.HostNext (.access ⟨true, off, 2, v⟩ onError) rest → off.toNat % 4 = 0 → off ≠ 0x00C →
    ∃ e : Engine,
      step s = .next { s.afterInput rest with toEngine := e, received := .writeDone :: s.received } ∧
      (off = 0x004 → e = { s.toEngine with ie := v.getLsbD 0 }) ∧
      (off = 0x008 → e = { s.toEngine with
        done := if v.getLsbD 1 = true then false else s.done,
        err := if v.getLsbD 2 = true then false else s.err,
        errcode := if v.getLsbD 2 = true then 0 else s.errcode }) ∧
      (∀ i : Fin 8, off.toNat = 0x020 + 4 * i.val → s.busy = false →
        e = { s.toEngine with iv := s.iv.set i v }) ∧
      (∀ i : Fin 64, off.toNat = 0x200 + 4 * i.val → s.busy = false →
        e = { s.toEngine with data := s.data.set i v }) ∧
      (s.busy = true →
        ((∃ i : Fin 8, off.toNat = 0x020 + 4 * i.val) ∨
          (∃ i : Fin 64, off.toNat = 0x200 + 4 * i.val)) →
        e = { s.toEngine with
          err := true, errcode := if s.err = true then s.errcode else 2 }) ∧
      ((off = 0x000 ∨ (∃ i : Fin 64, off.toNat = 0x100 + 4 * i.val) ∨
        ReservedOffset off.toNat) → e = s.toEngine)

/-- R48: a write to STATUS acts only through the write-1-to-clear bits 1 and 2. -/
def Obligations.StatusWriteClearsByOnes : Prop :=
  ∀ (s : State) (rest : List Input) (v : Word) (onError : OnBusError),
    s.HostNext (.access ⟨true, 0x008, 2, v⟩ onError) rest →
    step s = .next { s.afterInput rest with
      received := .writeDone :: s.received
      done := if v.getLsbD 1 = true then false else s.done
      err := if v.getLsbD 2 = true then false else s.err
      errcode := if v.getLsbD 2 = true then 0 else s.errcode }

/-- R50: a reserved offset reads as zero and ignores writes, busy or not. -/
def Obligations.ReservedOffsetsAreInert : Prop :=
  ∀ (s : State) (rest : List Input) (a : Access) (onError : OnBusError),
    s.HostNext (.access a onError) rest → a.size = 2 → ReservedOffset a.addr.toNat →
    (a.write = false →
      step s = .next { s.afterInput rest with received := .value 0 :: s.received }) ∧
    (a.write = true →
      step s = .next { s.afterInput rest with received := .writeDone :: s.received })

/-- R52: while busy, a write to any IV word, any DATA word or CMD is rejected with code 2, whatever
the word written, and without a bus error. -/
def Obligations.BusyWritesAreRejected : Prop :=
  ∀ (s : State) (rest : List Input) (a : Access) (onError : OnBusError),
    s.HostNext (.access a onError) rest → s.busy = true → a.write = true → a.size = 2 →
    (a.addr = 0x00C ∨ (∃ i : Fin 8, a.addr.toNat = 0x020 + 4 * i.val) ∨
      (∃ i : Fin 64, a.addr.toNat = 0x200 + 4 * i.val)) →
    step s = .next { s.afterInput rest with
      received := .writeDone :: s.received
      err := true
      errcode := if s.err = true then s.errcode else 2 }

/-- R56, R57, U6: an access of another size or at another alignment gets a bus error, and no state of
the engine changes; a host that stops on it is faulted. That the host's statement says which of U6's
two treatments applies is the model's choice (log 11). -/
def Obligations.IllegalAccessGetsBusError : Prop :=
  ∀ (s : State) (rest : List Input) (a : Access) (onError : OnBusError),
    s.HostNext (.access a onError) rest → (a.size ≠ 2 ∨ a.addr.toNat % 4 ≠ 0) →
    (onError = .stop → step s = .fault .busError) ∧
    (onError = .handle → a.write = false →
      step s = .next { s.afterInput rest with received := .readError 0 :: s.received }) ∧
    (onError = .handle → a.write = true →
      step s = .next { s.afterInput rest with received := .writeError :: s.received })

/-- R43: the window is the 0x400 bytes from ENGINE_BASE, a multiple of 0x400, and an address of it
reaches the engine as its 10-bit offset. -/
def Obligations.WindowAddressesMapToOffsets : Prop :=
  Config.engineBase % 0x400 = 0 ∧
  (∀ off : BitVec 10, windowOffset (Config.engineBase + off.toNat) = some off) ∧
  (∀ pa : Nat, (pa < Config.engineBase ∨ Config.engineBase + 0x400 ≤ pa) → windowOffset pa = none)

/-- R53, R91, R55: the XOR of two blocks is the XOR of their bytes, and a block's bytes are its words'
bytes, least significant first. -/
def Obligations.XorActsBytewise : Prop :=
  (∀ a b : Block, blockBytes (xorb a b) = List.zipWith (· ^^^ ·) (blockBytes a) (blockBytes b)) ∧
  (∀ (b : Block) (i : Fin 64) (j : Nat), j < 4 →
    (blockBytes b)[4 * i.val + j]? = some (BitVec.ofNat 8 (b[i].toNat / 2 ^ (8 * j)))) ∧
  (∀ b : Block, blockOfBytes (blockBytes b) = b) ∧
  (∀ s : List Byte, s.length = 256 → blockBytes (blockOfBytes s) = s)

/-! ### Errors and the interrupt (60_exceptions.md) -/

/-- R129: recording an error keeps the first code and changes nothing else of the engine. -/
def Obligations.FirstErrorCodeIsKept : Prop :=
  ∀ (code : BitVec 4) (e : Engine),
    (e.err = false → e.cmdError code = { e with err := true, errcode := code }) ∧
    (e.err = true → e.cmdError code = e)

/-- R38, R133: the interrupt output is a function of CTRL.IE, DONE and ERR. -/
def Obligations.IrqFollowsState : Prop :=
  ∀ e : Engine, e.irq = true ↔ e.ie = true ∧ (e.done = true ∨ e.err = true)

/-- R133, R153: acknowledging DONE and ERR together leaves no source; the interrupt is down in the
state after that write. -/
def Obligations.AcknowledgeLowersIrq : Prop :=
  ∀ (s : State) (rest : List Input) (onError : OnBusError),
    s.HostNext (.access ⟨true, 0x008, 2, 0x00000006⟩ onError) rest →
    ∃ t, step s = .next t ∧ t.irq = false ∧ t.errcode = 0 ∧ t.ie = s.ie ∧ t.busy = s.busy

/-- R131: a recorded error does not block the engine. Whatever ERR and ERRCODE hold, every step that
goes on from one goes on from the other, and differs only in them and in what was read. -/
def Obligations.RecordedErrorDoesNotBlock : Prop :=
  ∀ (s t : State) (b : Bool) (c : BitVec 4), step s = .next t →
    ∃ u, step { s with err := b, errcode := c } = .next u ∧
      { u with err := t.err, errcode := t.errcode, received := t.received } = t

/-! ### Reset, power and the order of events (70_reset_and_hazards.md) -/

/-- R39: every piece of the engine's state after reset. -/
def Obligations.ResetValues : Prop :=
  (∀ i : Fin 8, State.reset.iv[i] = 0) ∧ (∀ i : Fin 64, State.reset.mask[i] = 0) ∧
  (∀ i : Fin 64, State.reset.data[i] = 0) ∧ State.reset.toEngine.readReg .id = 0x50435259 ∧
  State.reset.ie = false ∧ State.reset.busy = false ∧ State.reset.done = false ∧
  State.reset.err = false ∧ State.reset.maskValid = false ∧ State.reset.errcode = 0 ∧
  State.reset.pending = none ∧ State.reset.irq = false

/-- R144: a reset edge gives every piece of state its reset value, discards a pending command and
ignores the transaction presented, which a read sees as 0 without a bus error. The model's choices:
an access that R56 rejects is answered at that edge as any other, and a write with `writeDone`
(log 15, DEDUCED); the edge ends a loss of power (log 8). -/
def Obligations.ResetEdgeResetsEngine : Prop :=
  ∀ (s : State) (presented : Option Access) (rest : List Input),
    s.mover = .host → s.inputs = .resetEdge presented :: rest →
    step s = .next { s.afterInput rest with
      toEngine := State.reset.toEngine
      powerLost := false
      received :=
        match presented with
        | none => s.received
        | some a => (if a.write = true then .writeDone else .value 0) :: s.received }

/-- R143, U16: from a loss of power on, no component of R40 is guaranteed (a fresh free value at every
event), the engine is stuck, a host statement is acted on by nothing, and only a reset edge ends this.
That an unanswered statement is passed over with the answer `unanswered`, so that a reset edge behind
it is reached, is the model's form of "stuck" (log 8, DESIGN CHOICE). -/
def Obligations.PowerLossIsStuckUntilReset : Prop :=
  (∀ (s : State) (rest : List Input), s.mover = .host → s.inputs = .powerLoss :: rest →
    step s = .next { s.afterInput rest with
      toEngine := Config.lostEngine s.draws, draws := s.draws + 1, powerLost := true }) ∧
  (∀ (s : State) (inp : Input) (rest : List Input), s.powerLost = true → s.mover = .host →
    s.inputs = inp :: rest → (inp = .wait ∨ ∃ a onError, inp = .access a onError) →
    step s = .next { s.afterInput rest with
      toEngine := Config.lostEngine s.draws, draws := s.draws + 1
      received := .unanswered :: s.received }) ∧
  (∀ s : State, s.powerLost = true → (s.mover = .engine ∨ s.inputs = []) →
    step s = .next { s.take s.mover with
      toEngine := Config.lostEngine s.draws, draws := s.draws + 1 }) ∧
  (∀ s t : State, s.powerLost = true → step s = .next t → t.powerLost = false →
    s.mover = .host ∧ t.toEngine = State.reset.toEngine ∧
      ∃ presented rest, s.inputs = .resetEdge presented :: rest)

/-- R42, R148: a STATUS write and then a completion, so DONE reads 1 afterwards. The model has no cycle
(log 7): that the two fall in one cycle and that the write acts first is its order of events, in which
the host's event stands before the engine's (log 1). -/
def Obligations.CompletionWinsOverDoneClear : Prop :=
  ∀ (s : State) (i : Instr) (v : Word) (onError : OnBusError) (rest : List Input) (order : List Agent),
    s.schedule = .host :: .engine :: order → s.powerLost = false →
    s.inputs = .access ⟨true, 0x008, 2, v⟩ onError :: rest →
    s.busy = true → s.pending = some i →
    ∃ t u, step s = .next t ∧ step t = .next u ∧ t.busy = true ∧
      (v.getLsbD 1 = true → t.done = false) ∧
      u.done = true ∧ u.busy = false ∧ u.pending = none ∧ u.inputs = rest

/-- R75, R155: WAIT ends, whatever the order of events: within as many steps as the schedule lays
down and two more, the engine is idle and the next statement is at the head. The finite schedule is
the model's form of the weak fairness of R155 (log 1). -/
def Obligations.WaitEnds : Prop :=
  ∀ (s : State) (rest : List Input),
    s.Inv → s.powerLost = false → s.inputs = .wait :: rest →
    ∃ k t, k ≤ s.schedule.length + 2 ∧ Sys2Proof.core.run k s = .next t ∧
      t.inputs = rest ∧ t.busy = false ∧ t.pending = none

/-! ### Whole-machine rules -/

/-- R40: the invariants of the engine's state are kept by every step of the machine. They speak of an
engine that has a state: with the power lost there is none (R143; log 8). -/
def Obligations.StepKeepsInvariants : Prop :=
  ∀ s t : State, s.Inv → step s = .next t → t.Inv

/-- R39, R40: the invariants hold right after reset. -/
def Obligations.ResetHasInvariants : Prop :=
  State.reset.Inv ∧ State.reset.MaskForBlock

/-- R32, R102: every step keeps that a pending ENCBLK or DECBLK has a chaining state,
as far as the engine has a state (R143; log 8). -/
def Obligations.StepKeepsMaskForBlock : Prop :=
  ∀ s t : State, s.MaskForBlock → step s = .next t → t.MaskForBlock

/-- R66, R105, R106: while a command stays pending, no step changes its operands, its opcode or the
chaining state, and no other command takes its place. Nothing is said across a loss of power, after
which there is no state (R143; log 8). -/
def Obligations.PendingCommandIsHeld : Prop :=
  ∀ s t : State, s.busy = true → step s = .next t → t.powerLost = false → t.busy = true →
    t.pending = s.pending ∧ t.iv = s.iv ∧ t.mask = s.mask ∧ t.data = s.data ∧
      t.maskValid = s.maskValid ∧ (t.done = true → s.done = true)

/-- R21, R49: MASK changes only at the completion of KEYSCHED, ENCBLK, DECBLK, SETMASK or CLEAR, and
by reset: no host write reaches it. Nothing is said across a loss of power (R143; log 8). -/
def Obligations.OnlyCommandsWriteMask : Prop :=
  ∀ s t : State, step s = .next t → t.powerLost = false → t.mask ≠ s.mask →
    (s.mover = .engine ∧ s.busy = true ∧
      ∃ i, s.pending = some i ∧ i ∈ [.keysched, .encblk, .decblk, .setmask, .clear]) ∨
    (s.mover = .host ∧ ∃ presented rest, s.inputs = .resetEdge presented :: rest)

/-- R20, R22, R52: IV and DATA change only by a host write to that word while idle, at the completion
of a command that writes them, and by reset. Nothing is said across a loss of power (R143; log 8). -/
def Obligations.WritersOfIvAndData : Prop :=
  ∀ s t : State, step s = .next t → t.powerLost = false →
    (t.iv ≠ s.iv →
      (s.mover = .engine ∧ s.busy = true ∧ s.pending = some .clear) ∨
      (s.mover = .host ∧ ∃ presented rest, s.inputs = .resetEdge presented :: rest) ∨
      (s.mover = .host ∧ s.busy = false ∧ ∃ (i : Fin 8) (v : Word) (onError : OnBusError) (rest : List Input),
        s.inputs = .access ⟨true, BitVec.ofNat 10 (0x020 + 4 * i.val), 2, v⟩ onError :: rest ∧
        t.iv = s.iv.set i v)) ∧
    (t.data ≠ s.data →
      (s.mover = .engine ∧ s.busy = true ∧
        ∃ i, s.pending = some i ∧ i ∈ [.encblk, .decblk, .perm, .unperm, .clear]) ∨
      (s.mover = .host ∧ ∃ presented rest, s.inputs = .resetEdge presented :: rest) ∨
      (s.mover = .host ∧ s.busy = false ∧ ∃ (i : Fin 64) (v : Word) (onError : OnBusError) (rest : List Input),
        s.inputs = .access ⟨true, BitVec.ofNat 10 (0x200 + 4 * i.val), 2, v⟩ onError :: rest ∧
        t.data = s.data.set i v))

/-- R26, R29, R30, R31, R32: BUSY is set only by a CMD write whose word decodes, and cleared only at a
completion or by reset; DONE is set only at a completion, and cleared only by an accepted command, a
STATUS write with bit 1 or reset; MASK_VALID is set only at the completion of KEYSCHED or SETMASK, and
cleared only at that of CLEAR or by reset; IE changes only by a CTRL write or reset; ERR is set only by
a rejected write and cleared only by a STATUS write with bit 2 or reset. Nothing is said across a loss
of power (R143; log 8). -/
def Obligations.WritersOfFlags : Prop :=
  ∀ s t : State, step s = .next t → t.powerLost = false →
    (s.busy = false → t.busy = true →
      s.mover = .host ∧ ∃ (v : Word) (i : Instr) (onError : OnBusError) (rest : List Input),
        s.inputs = .access ⟨true, 0x00C, 2, v⟩ onError :: rest ∧ decode v = .ok i ∧
        t.pending = some i ∧ t.done = false) ∧
    (s.busy = true → t.busy = false →
      (s.mover = .engine ∧ t.done = true) ∨
      (s.mover = .host ∧ ∃ presented rest, s.inputs = .resetEdge presented :: rest)) ∧
    (s.done = false → t.done = true → s.mover = .engine ∧ s.busy = true ∧ t.busy = false) ∧
    (s.done = true → t.done = false → s.mover = .host ∧
      ((∃ presented rest, s.inputs = .resetEdge presented :: rest) ∨
       (s.busy = false ∧ t.busy = true) ∨
       (∃ (v : Word) (onError : OnBusError) (rest : List Input),
        s.inputs = .access ⟨true, 0x008, 2, v⟩ onError :: rest ∧ v.getLsbD 1 = true))) ∧
    (s.maskValid = false → t.maskValid = true → s.mover = .engine ∧ s.busy = true ∧
      (s.pending = some .keysched ∨ s.pending = some .setmask)) ∧
    (s.maskValid = true → t.maskValid = false →
      (s.mover = .engine ∧ s.busy = true ∧ s.pending = some .clear) ∨
      (s.mover = .host ∧ ∃ presented rest, s.inputs = .resetEdge presented :: rest)) ∧
    (t.ie ≠ s.ie → s.mover = .host ∧
      ((∃ presented rest, s.inputs = .resetEdge presented :: rest) ∨
       (∃ (v : Word) (onError : OnBusError) (rest : List Input),
        s.inputs = .access ⟨true, 0x004, 2, v⟩ onError :: rest ∧ t.ie = v.getLsbD 0))) ∧
    (s.err = false → t.err = true → s.mover = .host ∧
      ∃ (off : BitVec 10) (v : Word) (onError : OnBusError) (rest : List Input),
        s.inputs = .access ⟨true, off, 2, v⟩ onError :: rest ∧
        (off = 0x00C ∨ (s.busy = true ∧ ((∃ i : Fin 8, off.toNat = 0x020 + 4 * i.val) ∨
          (∃ i : Fin 64, off.toNat = 0x200 + 4 * i.val))))) ∧
    (s.err = true → t.err = false → s.mover = .host ∧
      ((∃ presented rest, s.inputs = .resetEdge presented :: rest) ∨
       (∃ (v : Word) (onError : OnBusError) (rest : List Input),
        s.inputs = .access ⟨true, 0x008, 2, v⟩ onError :: rest ∧ v.getLsbD 2 = true)))

/-- R33, R128: ERRCODE changes only while `ERR = 0`, by the recording of an error, or where ERR is
cleared; the code recorded is 1, 2 or 3. Nothing is said across a loss of power (R143; log 8). -/
def Obligations.ErrcodeIsFirstError : Prop :=
  ∀ s t : State, s.Inv → step s = .next t → t.powerLost = false →
    (s.err = true → t.err = true → t.errcode = s.errcode) ∧
    (s.err = false → t.err = true → t.errcode ∈ [1, 2, 3]) ∧
    (t.err = false → t.errcode = 0)

/-- R147: a host that keeps the hazard rule records no error while a command is pending, and reads no
unspecified value, as long as the engine keeps its power (R143; log 8). -/
def Obligations.HazardFreeHostSeesNoBusyError : Prop :=
  ∀ (s t : State) (inp : Input) (rest : List Input),
    s.HostNext inp rest → s.busy = true → HostRespects s inp → step s = .next t →
    t.powerLost = false → (t.err = true → s.err = true) ∧ t.draws = s.draws

/-! ### The key schedule and the chaining (40_key_schedule.md, 42_chaining.md) -/

/-- R76, R78: in bytes, output byte `32r + c` of the key schedule is IV byte `c` rotated left by `r`
within its 8 bits. -/
def Obligations.KeyScheduleBytes : Prop :=
  (∀ iv : IvFile, blockBytes (ksw iv) = ksBytes (ivFileBytes iv)) ∧
  (∀ (iv : IvFile) (r : Fin 8) (c : Fin 32),
    (blockBytes (ksw iv))[32 * r.val + c.val]? =
      ((ivFileBytes iv)[c.val]?).map fun b => b.rotateLeft r.val)

/-- R80: the key schedule is injective. -/
def Obligations.KeyScheduleInjective : Prop :=
  ∀ v v' : IvFile, ksw v = ksw v' → v = v'

/-- R98 on the machine: if ENCBLK completes on one state and DECBLK on another that holds the
ciphertext it made and the mask it started from, the plaintext is back and the masks agree. -/
def Obligations.DecblkUndoesEncblk : Prop :=
  ∀ s t s' : State, s.AtCompletion .encblk → exec .encblk s = .next t →
    s'.AtCompletion .decblk → s'.data = t.data → s'.mask = s.mask →
    ∃ t', exec .decblk s' = .next t' ∧ t'.data = s.data ∧ t'.mask = t.mask

/-- R98: decrypting the encryption of a list of blocks from the same mask gives the blocks back, for
every permutation. -/
def Obligations.ChainRoundTrip : Prop :=
  ∀ (π : Equiv.Perm Block) (m : Block) (ps : List Block),
    decChain π.symm m (encChain π m ps) = ps

/-- R101: changing ciphertext block `k` changes no decrypted block but `k` and `k + 1`, and changes
block `k + 1` by exactly the XOR difference. -/
def Obligations.CorruptionTouchesTwoBlocks : Prop :=
  ∀ (unperm : Block → Block) (m c' : Block) (cs : List Block) (k : Nat) (hk : k < cs.length),
    (∀ j, j ≠ k → j ≠ k + 1 →
      (decChain unperm m (cs.set k c'))[j]? = (decChain unperm m cs)[j]?) ∧
    (decChain unperm m (cs.set k c'))[k + 1]? =
      ((decChain unperm m cs)[k + 1]?).map fun p => xorb p (xorb cs[k] c')

/-- R125: for one plaintext, two IVs give frames that differ in every ciphertext block. -/
def Obligations.EveryBlockDependsOnIv : Prop :=
  ∀ (π : Equiv.Perm Block) (v v' : IvFile) (ps : List Block) (k : Nat), v ≠ v' → k < ps.length →
    (encChain π (ksw v) ps)[k]? ≠ (encChain π (ksw v') ps)[k]?

/-! ### Host framing (44_host_framing.md) -/

/-- R113: the length of the frame and the number of its blocks. -/
def Obligations.FrameLength : Prop :=
  ∀ (perm : Block → Block) (p iv : List Byte), iv.length = 32 →
    (encFrame perm p iv).length = 32 + p.length + padLen p.length ∧
    (blocksOf (paddedBuffer p)).length = (p.length + padLen p.length) / 256 ∧
    (p.length + padLen p.length) / 256 = p.length / 256 + 1 ∧
    (∀ policy, (policy = .reject → p.length % 256 ≠ 0) →
      encrypt policy perm p iv = .ok (encFrame perm p iv))

/-- R123: the round trip under each policy, for every permutation. -/
def Obligations.EncryptDecryptRoundTrip : Prop :=
  ∀ (π : Equiv.Perm Block) (p iv : List Byte), iv.length = 32 →
    (encrypt .zeroIs256 π p iv).bind (decrypt .zeroIs256 π.symm) = .ok p ∧
    (encrypt .compat π p iv).bind (decrypt .compat π.symm) =
      .ok (if p.length % 256 = 0 then p ++ List.replicate 256 0 else p) ∧
    (p.length % 256 = 0 → encrypt .reject π p iv = .error .paddingOverflow) ∧
    (p.length % 256 ≠ 0 → (encrypt .reject π p iv).bind (decrypt .reject π.symm) = .ok p)

/-- R117, R119, R120, R124: `decrypt` fails exactly on a malformed length, and under `reject` on a
marker of 0; no other input fails. -/
def Obligations.DecryptFailsOnlyAsStated : Prop :=
  ∀ (unperm : Block → Block) (policy : PadPolicy) (c : List Byte),
    ((c.length < 288 ∨ (c.length - 32) % 256 ≠ 0) →
      decrypt policy unperm c = .error .malformedCiphertext) ∧
    (288 ≤ c.length → (c.length - 32) % 256 = 0 →
      (policy = .reject ∧ (decBody unperm c).getLastD 0 = 0 ∧
        decrypt policy unperm c = .error .paddingOverflow) ∨
      (¬ (policy = .reject ∧ (decBody unperm c).getLastD 0 = 0) ∧
        ∃ p, decrypt policy unperm c = .ok p ∧ p <+: decBody unperm c))

/-- R114, R115, R124: `encrypt` fails exactly on an IV of another length, under every policy, and under
`reject` on a plaintext whose length is a multiple of 256; no other input fails, and a call that fails
presents nothing to the engine, so it touches no register. -/
def Obligations.EncryptFailsOnlyAsStated : Prop :=
  ∀ (perm : Block → Block) (policy : PadPolicy) (p iv : List Byte),
    (iv.length ≠ 32 →
      encrypt policy perm p iv = .error .invalidIvLength ∧
      encryptCall policy p iv = .error .invalidIvLength) ∧
    (iv.length = 32 → policy = .reject → p.length % 256 = 0 →
      encrypt policy perm p iv = .error .paddingOverflow ∧
      encryptCall policy p iv = .error .paddingOverflow) ∧
    (iv.length = 32 → ¬ (policy = .reject ∧ p.length % 256 = 0) →
      encrypt policy perm p iv = .ok (encFrame perm p iv) ∧
      encryptCall policy p iv = .ok (encryptProgram p iv))

/-- R115, R116: whatever the order of events, the host program of `encrypt` runs to its end on an idle
engine, and the words it reads back make the frame of the pure function. The order of events and the
list of answers are the model's own (log 1, log 9), and so is that an ended run has power (log 18). -/
def Obligations.EncryptProgramComputesFrame : Prop :=
  ∀ (p iv : List Byte) (s : State), iv.length = 32 → s.Idle →
    s.inputs = encryptProgram p iv → s.received = [] →
    ∃ t, Reaches s t ∧ t.Final ∧ encryptResult iv t.received = encFrame Config.perm p iv

/-- R118: the same for `decrypt`, under every policy (log 1, log 9, log 18). -/
def Obligations.DecryptProgramComputesPlaintext : Prop :=
  ∀ (policy : PadPolicy) (c : List Byte) (s : State),
    288 ≤ c.length → (c.length - 32) % 256 = 0 → s.Idle →
    s.inputs = decryptProgram c → s.received = [] →
    ∃ t, Reaches s t ∧ t.Final ∧ decryptResult policy t.received = decrypt policy Config.unperm c

/-- R126: the chaining state can be saved and restored through the engine's own commands, whatever
the order of events (log 1, log 9, log 18). -/
def Obligations.ChainingStateSavesAndRestores : Prop :=
  (∀ s : State, s.Inv → s.powerLost = false → s.inputs = saveProgram → s.received = [] →
    ∃ t, Reaches s t ∧ t.Final ∧ answerWords t.received = t.mask.toList) ∧
  (∀ (m : Block) (s : State), s.Idle → s.inputs = restoreProgram m →
    ∃ t, Reaches s t ∧ t.Final ∧ t.mask = m ∧ t.maskValid = true ∧ t.iv = s.iv)

/-- R100: block `k` is decrypted alone from the block before it, whatever the order of events (log 1,
log 9, log 18). -/
def Obligations.BlockDecryptsAlone : Prop :=
  ∀ (previous c : Block) (s : State), s.Idle → s.inputs = decryptAloneProgram previous c →
    s.received = [] →
    ∃ t, Reaches s t ∧ t.Final ∧
      answerWords t.received = (xorb (Config.unperm c) previous).toList ∧ t.mask = c
end

