-- ==== Sys2Proof/Laws/Decode.lean ====
section
/-! SUPPORT. The fields of a command word (R68). -/

namespace Sys2Proof

theorem mbzField_eq_zero_iff (v : Word) : mbzField v = 0 ↔ v.toNat / 16 = 0 := by
  rw [← BitVec.toNat_inj]
  have := v.isLt
  simp [mbzField, Nat.shiftRight_eq_div_pow]
  omega

theorem opField_toNat (v : Word) : (opField v).toNat = v.toNat % 16 := by
  simp [opField]

/-- A command word is at most 7 as a number (R71). -/
theorem encode_toNat (i : Instr) : (encode i).toNat = (opOfInstr i).toNat := by
  cases i <;> rfl

end Sys2Proof
end

