-- ==== Sys2Proof/Laws/State.lean ====
section
/-! SUPPORT. The small lemmas of the record updates: for each operation, what each field is afterwards.
No later proof needs to unfold a record update. -/

namespace Sys2Proof.Machine

/-! `raise CmdError` (R129) -/

@[simp] theorem Engine.cmdError_iv (code : BitVec 4) (e : Engine) : (e.cmdError code).iv = e.iv := rfl
@[simp] theorem Engine.cmdError_mask (code : BitVec 4) (e : Engine) : (e.cmdError code).mask = e.mask := rfl
@[simp] theorem Engine.cmdError_data (code : BitVec 4) (e : Engine) : (e.cmdError code).data = e.data := rfl
@[simp] theorem Engine.cmdError_ie (code : BitVec 4) (e : Engine) : (e.cmdError code).ie = e.ie := rfl
@[simp] theorem Engine.cmdError_busy (code : BitVec 4) (e : Engine) : (e.cmdError code).busy = e.busy := rfl
@[simp] theorem Engine.cmdError_done (code : BitVec 4) (e : Engine) : (e.cmdError code).done = e.done := rfl
@[simp] theorem Engine.cmdError_err (code : BitVec 4) (e : Engine) : (e.cmdError code).err = true := rfl
@[simp] theorem Engine.cmdError_maskValid (code : BitVec 4) (e : Engine) : (e.cmdError code).maskValid = e.maskValid := rfl
@[simp] theorem Engine.cmdError_errcode (code : BitVec 4) (e : Engine) : (e.cmdError code).errcode = (if e.err then e.errcode else code) := rfl
@[simp] theorem Engine.cmdError_pending (code : BitVec 4) (e : Engine) : (e.cmdError code).pending = e.pending := rfl

/-! A write to STATUS (R48) -/

@[simp] theorem Engine.writeStatus_iv (v : Word) (e : Engine) : (e.writeStatus v).iv = e.iv := rfl
@[simp] theorem Engine.writeStatus_mask (v : Word) (e : Engine) : (e.writeStatus v).mask = e.mask := rfl
@[simp] theorem Engine.writeStatus_data (v : Word) (e : Engine) : (e.writeStatus v).data = e.data := rfl
@[simp] theorem Engine.writeStatus_ie (v : Word) (e : Engine) : (e.writeStatus v).ie = e.ie := rfl
@[simp] theorem Engine.writeStatus_busy (v : Word) (e : Engine) : (e.writeStatus v).busy = e.busy := rfl
@[simp] theorem Engine.writeStatus_done (v : Word) (e : Engine) : (e.writeStatus v).done = (e.done && !v.getLsbD 1) := rfl
@[simp] theorem Engine.writeStatus_err (v : Word) (e : Engine) : (e.writeStatus v).err = (e.err && !v.getLsbD 2) := rfl
@[simp] theorem Engine.writeStatus_maskValid (v : Word) (e : Engine) : (e.writeStatus v).maskValid = e.maskValid := rfl
@[simp] theorem Engine.writeStatus_errcode (v : Word) (e : Engine) : (e.writeStatus v).errcode = (if v.getLsbD 2 then 0 else e.errcode) := rfl
@[simp] theorem Engine.writeStatus_pending (v : Word) (e : Engine) : (e.writeStatus v).pending = e.pending := rfl

/-! KEYSCHED (R82) -/

@[simp] theorem keyschedEffect_iv (e : Engine) : (keyschedEffect e).iv = e.iv := rfl
@[simp] theorem keyschedEffect_mask (e : Engine) : (keyschedEffect e).mask = ksw e.iv := rfl
@[simp] theorem keyschedEffect_data (e : Engine) : (keyschedEffect e).data = e.data := rfl
@[simp] theorem keyschedEffect_ie (e : Engine) : (keyschedEffect e).ie = e.ie := rfl
@[simp] theorem keyschedEffect_busy (e : Engine) : (keyschedEffect e).busy = e.busy := rfl
@[simp] theorem keyschedEffect_done (e : Engine) : (keyschedEffect e).done = e.done := rfl
@[simp] theorem keyschedEffect_err (e : Engine) : (keyschedEffect e).err = e.err := rfl
@[simp] theorem keyschedEffect_maskValid (e : Engine) : (keyschedEffect e).maskValid = true := rfl
@[simp] theorem keyschedEffect_errcode (e : Engine) : (keyschedEffect e).errcode = e.errcode := rfl
@[simp] theorem keyschedEffect_pending (e : Engine) : (keyschedEffect e).pending = e.pending := rfl

/-! ENCBLK (R95) -/

@[simp] theorem encblkEffect_iv (p : Block → Block) (e : Engine) : (encblkEffect p e).iv = e.iv := rfl
@[simp] theorem encblkEffect_mask (p : Block → Block) (e : Engine) : (encblkEffect p e).mask = p (xorb e.data e.mask) := rfl
@[simp] theorem encblkEffect_data (p : Block → Block) (e : Engine) : (encblkEffect p e).data = p (xorb e.data e.mask) := rfl
@[simp] theorem encblkEffect_ie (p : Block → Block) (e : Engine) : (encblkEffect p e).ie = e.ie := rfl
@[simp] theorem encblkEffect_busy (p : Block → Block) (e : Engine) : (encblkEffect p e).busy = e.busy := rfl
@[simp] theorem encblkEffect_done (p : Block → Block) (e : Engine) : (encblkEffect p e).done = e.done := rfl
@[simp] theorem encblkEffect_err (p : Block → Block) (e : Engine) : (encblkEffect p e).err = e.err := rfl
@[simp] theorem encblkEffect_maskValid (p : Block → Block) (e : Engine) : (encblkEffect p e).maskValid = e.maskValid := rfl
@[simp] theorem encblkEffect_errcode (p : Block → Block) (e : Engine) : (encblkEffect p e).errcode = e.errcode := rfl
@[simp] theorem encblkEffect_pending (p : Block → Block) (e : Engine) : (encblkEffect p e).pending = e.pending := rfl

/-! DECBLK (R96) -/

@[simp] theorem decblkEffect_iv (u : Block → Block) (e : Engine) : (decblkEffect u e).iv = e.iv := rfl
@[simp] theorem decblkEffect_mask (u : Block → Block) (e : Engine) : (decblkEffect u e).mask = e.data := rfl
@[simp] theorem decblkEffect_data (u : Block → Block) (e : Engine) : (decblkEffect u e).data = xorb (u e.data) e.mask := rfl
@[simp] theorem decblkEffect_ie (u : Block → Block) (e : Engine) : (decblkEffect u e).ie = e.ie := rfl
@[simp] theorem decblkEffect_busy (u : Block → Block) (e : Engine) : (decblkEffect u e).busy = e.busy := rfl
@[simp] theorem decblkEffect_done (u : Block → Block) (e : Engine) : (decblkEffect u e).done = e.done := rfl
@[simp] theorem decblkEffect_err (u : Block → Block) (e : Engine) : (decblkEffect u e).err = e.err := rfl
@[simp] theorem decblkEffect_maskValid (u : Block → Block) (e : Engine) : (decblkEffect u e).maskValid = e.maskValid := rfl
@[simp] theorem decblkEffect_errcode (u : Block → Block) (e : Engine) : (decblkEffect u e).errcode = e.errcode := rfl
@[simp] theorem decblkEffect_pending (u : Block → Block) (e : Engine) : (decblkEffect u e).pending = e.pending := rfl

/-! PERM (R89) -/

@[simp] theorem permEffect_iv (p : Block → Block) (e : Engine) : (permEffect p e).iv = e.iv := rfl
@[simp] theorem permEffect_mask (p : Block → Block) (e : Engine) : (permEffect p e).mask = e.mask := rfl
@[simp] theorem permEffect_data (p : Block → Block) (e : Engine) : (permEffect p e).data = p e.data := rfl
@[simp] theorem permEffect_ie (p : Block → Block) (e : Engine) : (permEffect p e).ie = e.ie := rfl
@[simp] theorem permEffect_busy (p : Block → Block) (e : Engine) : (permEffect p e).busy = e.busy := rfl
@[simp] theorem permEffect_done (p : Block → Block) (e : Engine) : (permEffect p e).done = e.done := rfl
@[simp] theorem permEffect_err (p : Block → Block) (e : Engine) : (permEffect p e).err = e.err := rfl
@[simp] theorem permEffect_maskValid (p : Block → Block) (e : Engine) : (permEffect p e).maskValid = e.maskValid := rfl
@[simp] theorem permEffect_errcode (p : Block → Block) (e : Engine) : (permEffect p e).errcode = e.errcode := rfl
@[simp] theorem permEffect_pending (p : Block → Block) (e : Engine) : (permEffect p e).pending = e.pending := rfl

/-! UNPERM (R90) -/

@[simp] theorem unpermEffect_iv (u : Block → Block) (e : Engine) : (unpermEffect u e).iv = e.iv := rfl
@[simp] theorem unpermEffect_mask (u : Block → Block) (e : Engine) : (unpermEffect u e).mask = e.mask := rfl
@[simp] theorem unpermEffect_data (u : Block → Block) (e : Engine) : (unpermEffect u e).data = u e.data := rfl
@[simp] theorem unpermEffect_ie (u : Block → Block) (e : Engine) : (unpermEffect u e).ie = e.ie := rfl
@[simp] theorem unpermEffect_busy (u : Block → Block) (e : Engine) : (unpermEffect u e).busy = e.busy := rfl
@[simp] theorem unpermEffect_done (u : Block → Block) (e : Engine) : (unpermEffect u e).done = e.done := rfl
@[simp] theorem unpermEffect_err (u : Block → Block) (e : Engine) : (unpermEffect u e).err = e.err := rfl
@[simp] theorem unpermEffect_maskValid (u : Block → Block) (e : Engine) : (unpermEffect u e).maskValid = e.maskValid := rfl
@[simp] theorem unpermEffect_errcode (u : Block → Block) (e : Engine) : (unpermEffect u e).errcode = e.errcode := rfl
@[simp] theorem unpermEffect_pending (u : Block → Block) (e : Engine) : (unpermEffect u e).pending = e.pending := rfl

/-! SETMASK (R97) -/

@[simp] theorem setmaskEffect_iv (e : Engine) : (setmaskEffect e).iv = e.iv := rfl
@[simp] theorem setmaskEffect_mask (e : Engine) : (setmaskEffect e).mask = e.data := rfl
@[simp] theorem setmaskEffect_data (e : Engine) : (setmaskEffect e).data = e.data := rfl
@[simp] theorem setmaskEffect_ie (e : Engine) : (setmaskEffect e).ie = e.ie := rfl
@[simp] theorem setmaskEffect_busy (e : Engine) : (setmaskEffect e).busy = e.busy := rfl
@[simp] theorem setmaskEffect_done (e : Engine) : (setmaskEffect e).done = e.done := rfl
@[simp] theorem setmaskEffect_err (e : Engine) : (setmaskEffect e).err = e.err := rfl
@[simp] theorem setmaskEffect_maskValid (e : Engine) : (setmaskEffect e).maskValid = true := rfl
@[simp] theorem setmaskEffect_errcode (e : Engine) : (setmaskEffect e).errcode = e.errcode := rfl
@[simp] theorem setmaskEffect_pending (e : Engine) : (setmaskEffect e).pending = e.pending := rfl

/-! CLEAR (R108) -/

@[simp] theorem clearEffect_iv (e : Engine) : (clearEffect e).iv = Vector.replicate 8 0 := rfl
@[simp] theorem clearEffect_mask (e : Engine) : (clearEffect e).mask = Vector.replicate 64 0 := rfl
@[simp] theorem clearEffect_data (e : Engine) : (clearEffect e).data = Vector.replicate 64 0 := rfl
@[simp] theorem clearEffect_ie (e : Engine) : (clearEffect e).ie = e.ie := rfl
@[simp] theorem clearEffect_busy (e : Engine) : (clearEffect e).busy = e.busy := rfl
@[simp] theorem clearEffect_done (e : Engine) : (clearEffect e).done = e.done := rfl
@[simp] theorem clearEffect_err (e : Engine) : (clearEffect e).err = e.err := rfl
@[simp] theorem clearEffect_maskValid (e : Engine) : (clearEffect e).maskValid = false := rfl
@[simp] theorem clearEffect_errcode (e : Engine) : (clearEffect e).errcode = e.errcode := rfl
@[simp] theorem clearEffect_pending (e : Engine) : (clearEffect e).pending = e.pending := rfl

/-! NOP (R107) -/

@[simp] theorem nopEffect_iv (e : Engine) : (nopEffect e).iv = e.iv := rfl
@[simp] theorem nopEffect_mask (e : Engine) : (nopEffect e).mask = e.mask := rfl
@[simp] theorem nopEffect_data (e : Engine) : (nopEffect e).data = e.data := rfl
@[simp] theorem nopEffect_ie (e : Engine) : (nopEffect e).ie = e.ie := rfl
@[simp] theorem nopEffect_busy (e : Engine) : (nopEffect e).busy = e.busy := rfl
@[simp] theorem nopEffect_done (e : Engine) : (nopEffect e).done = e.done := rfl
@[simp] theorem nopEffect_err (e : Engine) : (nopEffect e).err = e.err := rfl
@[simp] theorem nopEffect_maskValid (e : Engine) : (nopEffect e).maskValid = e.maskValid := rfl
@[simp] theorem nopEffect_errcode (e : Engine) : (nopEffect e).errcode = e.errcode := rfl
@[simp] theorem nopEffect_pending (e : Engine) : (nopEffect e).pending = e.pending := rfl

/-! The answer to a transaction (R42) -/

@[simp] theorem State.answer_toEngine (r : Response) (s : State) : (s.answer r).toEngine = s.toEngine := rfl
@[simp] theorem State.answer_turn (r : Response) (s : State) : (s.answer r).turn = s.turn := rfl
@[simp] theorem State.answer_schedule (r : Response) (s : State) : (s.answer r).schedule = s.schedule := rfl
@[simp] theorem State.answer_inputs (r : Response) (s : State) : (s.answer r).inputs = s.inputs := rfl
@[simp] theorem State.answer_received (r : Response) (s : State) : (s.answer r).received = r :: s.received := rfl
@[simp] theorem State.answer_draws (r : Response) (s : State) : (s.answer r).draws = s.draws := rfl
@[simp] theorem State.answer_powerLost (r : Response) (s : State) : (s.answer r).powerLost = s.powerLost := rfl

/-! The beginning of an event -/

@[simp] theorem State.take_toEngine (a : Agent) (s : State) : (s.take a).toEngine = s.toEngine := rfl
@[simp] theorem State.take_turn (a : Agent) (s : State) : (s.take a).turn = a := rfl
@[simp] theorem State.take_schedule (a : Agent) (s : State) : (s.take a).schedule = s.schedule.tail := rfl
@[simp] theorem State.take_inputs (a : Agent) (s : State) : (s.take a).inputs = s.inputs := rfl
@[simp] theorem State.take_received (a : Agent) (s : State) : (s.take a).received = s.received := rfl
@[simp] theorem State.take_draws (a : Agent) (s : State) : (s.take a).draws = s.draws := rfl
@[simp] theorem State.take_powerLost (a : Agent) (s : State) : (s.take a).powerLost = s.powerLost := rfl

/-! The consumption of an input -/

@[simp] theorem State.afterInput_toEngine (rest : List Input) (s : State) : (s.afterInput rest).toEngine = s.toEngine := rfl
@[simp] theorem State.afterInput_turn (rest : List Input) (s : State) : (s.afterInput rest).turn = .host := rfl
@[simp] theorem State.afterInput_schedule (rest : List Input) (s : State) : (s.afterInput rest).schedule = s.schedule.tail := rfl
@[simp] theorem State.afterInput_inputs (rest : List Input) (s : State) : (s.afterInput rest).inputs = rest := rfl
@[simp] theorem State.afterInput_received (rest : List Input) (s : State) : (s.afterInput rest).received = s.received := rfl
@[simp] theorem State.afterInput_draws (rest : List Input) (s : State) : (s.afterInput rest).draws = s.draws := rfl
@[simp] theorem State.afterInput_powerLost (rest : List Input) (s : State) : (s.afterInput rest).powerLost = s.powerLost := rfl

/-! An engine without state, and the loss of power (R143) -/

@[simp] theorem State.withoutState_toEngine (s : State) : s.withoutState.toEngine = Config.lostEngine s.draws := rfl
@[simp] theorem State.withoutState_turn (s : State) : s.withoutState.turn = s.turn := rfl
@[simp] theorem State.withoutState_schedule (s : State) : s.withoutState.schedule = s.schedule := rfl
@[simp] theorem State.withoutState_inputs (s : State) : s.withoutState.inputs = s.inputs := rfl
@[simp] theorem State.withoutState_received (s : State) : s.withoutState.received = s.received := rfl
@[simp] theorem State.withoutState_draws (s : State) : s.withoutState.draws = s.draws + 1 := rfl
@[simp] theorem State.withoutState_powerLost (s : State) : s.withoutState.powerLost = s.powerLost := rfl
@[simp] theorem State.losePower_toEngine (s : State) : s.losePower.toEngine = Config.lostEngine s.draws := rfl
@[simp] theorem State.losePower_turn (s : State) : s.losePower.turn = s.turn := rfl
@[simp] theorem State.losePower_schedule (s : State) : s.losePower.schedule = s.schedule := rfl
@[simp] theorem State.losePower_inputs (s : State) : s.losePower.inputs = s.inputs := rfl
@[simp] theorem State.losePower_received (s : State) : s.losePower.received = s.received := rfl
@[simp] theorem State.losePower_draws (s : State) : s.losePower.draws = s.draws + 1 := rfl
@[simp] theorem State.losePower_powerLost (s : State) : s.losePower.powerLost = true := rfl
@[simp] theorem State.unanswered_toEngine (s : State) : s.unanswered.toEngine = Config.lostEngine s.draws := rfl
@[simp] theorem State.unanswered_turn (s : State) : s.unanswered.turn = s.turn := rfl
@[simp] theorem State.unanswered_schedule (s : State) : s.unanswered.schedule = s.schedule := rfl
@[simp] theorem State.unanswered_inputs (s : State) : s.unanswered.inputs = s.inputs := rfl
@[simp] theorem State.unanswered_received (s : State) : s.unanswered.received = .unanswered :: s.received := rfl
@[simp] theorem State.unanswered_draws (s : State) : s.unanswered.draws = s.draws + 1 := rfl
@[simp] theorem State.unanswered_powerLost (s : State) : s.unanswered.powerLost = s.powerLost := rfl

/-! An event in which nothing happens -/

@[simp] theorem State.idle_turn (s : State) : s.idle.turn = s.turn := by
  unfold State.idle; split <;> rfl
@[simp] theorem State.idle_schedule (s : State) : s.idle.schedule = s.schedule := by
  unfold State.idle; split <;> rfl
@[simp] theorem State.idle_inputs (s : State) : s.idle.inputs = s.inputs := by
  unfold State.idle; split <;> rfl
@[simp] theorem State.idle_received (s : State) : s.idle.received = s.received := by
  unfold State.idle; split <;> rfl
@[simp] theorem State.idle_powerLost (s : State) : s.idle.powerLost = s.powerLost := by
  unfold State.idle; split <;> rfl
@[simp] theorem State.idle_of_power {s : State} (h : s.powerLost = false) : s.idle = s := by
  simp [State.idle, h]
@[simp] theorem State.idle_of_powerLost {s : State} (h : s.powerLost = true) : s.idle = s.withoutState := by
  simp [State.idle, h]

/-! `raise CmdError` on the machine -/

@[simp] theorem State.cmdError_toEngine (code : BitVec 4) (s : State) : (s.cmdError code).toEngine = s.toEngine.cmdError code := rfl
@[simp] theorem State.cmdError_turn (code : BitVec 4) (s : State) : (s.cmdError code).turn = s.turn := rfl
@[simp] theorem State.cmdError_schedule (code : BitVec 4) (s : State) : (s.cmdError code).schedule = s.schedule := rfl
@[simp] theorem State.cmdError_inputs (code : BitVec 4) (s : State) : (s.cmdError code).inputs = s.inputs := rfl
@[simp] theorem State.cmdError_received (code : BitVec 4) (s : State) : (s.cmdError code).received = s.received := rfl
@[simp] theorem State.cmdError_draws (code : BitVec 4) (s : State) : (s.cmdError code).draws = s.draws := rfl
@[simp] theorem State.cmdError_powerLost (code : BitVec 4) (s : State) : (s.cmdError code).powerLost = s.powerLost := rfl

/-! The completion (R103) -/

@[simp] theorem State.complete_toEngine (f : Engine → Engine) (s : State) : (s.complete f).toEngine = { f s.toEngine with pending := none, busy := false, done := true } := rfl
@[simp] theorem State.complete_turn (f : Engine → Engine) (s : State) : (s.complete f).turn = s.turn := rfl
@[simp] theorem State.complete_schedule (f : Engine → Engine) (s : State) : (s.complete f).schedule = s.schedule := rfl
@[simp] theorem State.complete_inputs (f : Engine → Engine) (s : State) : (s.complete f).inputs = s.inputs := rfl
@[simp] theorem State.complete_received (f : Engine → Engine) (s : State) : (s.complete f).received = s.received := rfl
@[simp] theorem State.complete_draws (f : Engine → Engine) (s : State) : (s.complete f).draws = s.draws := rfl
@[simp] theorem State.complete_powerLost (f : Engine → Engine) (s : State) : (s.complete f).powerLost = s.powerLost := rfl

/-! A read (R46) -/

@[simp] theorem State.regRead_toEngine (r : Reg) (s : State) : (s.regRead r).toEngine = s.toEngine := rfl
@[simp] theorem State.regRead_turn (r : Reg) (s : State) : (s.regRead r).turn = s.turn := rfl
@[simp] theorem State.regRead_schedule (r : Reg) (s : State) : (s.regRead r).schedule = s.schedule := rfl
@[simp] theorem State.regRead_inputs (r : Reg) (s : State) : (s.regRead r).inputs = s.inputs := rfl
@[simp] theorem State.regRead_received (r : Reg) (s : State) : (s.regRead r).received = .value (s.readValue r) :: s.received := rfl
@[simp] theorem State.regRead_draws (r : Reg) (s : State) : (s.regRead r).draws = (if s.readIsFree r then s.draws + 1 else s.draws) := rfl
@[simp] theorem State.regRead_powerLost (r : Reg) (s : State) : (s.regRead r).powerLost = s.powerLost := rfl

/-! A write (R47) -/

@[simp] theorem State.regWrite_toEngine (r : Reg) (v : Word) (s : State) : (s.regWrite r v).toEngine = s.toEngine.writeReg r v := rfl
@[simp] theorem State.regWrite_turn (r : Reg) (v : Word) (s : State) : (s.regWrite r v).turn = s.turn := rfl
@[simp] theorem State.regWrite_schedule (r : Reg) (v : Word) (s : State) : (s.regWrite r v).schedule = s.schedule := rfl
@[simp] theorem State.regWrite_inputs (r : Reg) (v : Word) (s : State) : (s.regWrite r v).inputs = s.inputs := rfl
@[simp] theorem State.regWrite_received (r : Reg) (v : Word) (s : State) : (s.regWrite r v).received = .writeDone :: s.received := rfl
@[simp] theorem State.regWrite_draws (r : Reg) (v : Word) (s : State) : (s.regWrite r v).draws = s.draws := rfl
@[simp] theorem State.regWrite_powerLost (r : Reg) (v : Word) (s : State) : (s.regWrite r v).powerLost = s.powerLost := rfl

/-! The issue of a command (R102) -/

@[simp] theorem State.issue_turn (i : Instr) (n : Bool) (s : State) : (s.issue i n).turn = s.turn := by
  unfold State.issue; split
  · rfl
  · split <;> rfl
@[simp] theorem State.issue_schedule (i : Instr) (n : Bool) (s : State) : (s.issue i n).schedule = s.schedule := by
  unfold State.issue; split
  · rfl
  · split <;> rfl
@[simp] theorem State.issue_inputs (i : Instr) (n : Bool) (s : State) : (s.issue i n).inputs = s.inputs := by
  unfold State.issue; split
  · rfl
  · split <;> rfl
@[simp] theorem State.issue_received (i : Instr) (n : Bool) (s : State) : (s.issue i n).received = s.received := by
  unfold State.issue; split
  · rfl
  · split <;> rfl
@[simp] theorem State.issue_draws (i : Instr) (n : Bool) (s : State) : (s.issue i n).draws = s.draws := by
  unfold State.issue; split
  · rfl
  · split <;> rfl
@[simp] theorem State.issue_powerLost (i : Instr) (n : Bool) (s : State) : (s.issue i n).powerLost = s.powerLost := by
  unfold State.issue; split
  · rfl
  · split <;> rfl

/-! An illegal word (R73) -/

@[simp] theorem State.rejectIllegal_turn  (s : State) : (s.rejectIllegal).turn = s.turn := by
  unfold State.rejectIllegal; split <;> rfl
@[simp] theorem State.rejectIllegal_schedule  (s : State) : (s.rejectIllegal).schedule = s.schedule := by
  unfold State.rejectIllegal; split <;> rfl
@[simp] theorem State.rejectIllegal_inputs  (s : State) : (s.rejectIllegal).inputs = s.inputs := by
  unfold State.rejectIllegal; split <;> rfl
@[simp] theorem State.rejectIllegal_received  (s : State) : (s.rejectIllegal).received = s.received := by
  unfold State.rejectIllegal; split <;> rfl
@[simp] theorem State.rejectIllegal_draws  (s : State) : (s.rejectIllegal).draws = s.draws := by
  unfold State.rejectIllegal; split <;> rfl
@[simp] theorem State.rejectIllegal_powerLost  (s : State) : (s.rejectIllegal).powerLost = s.powerLost := by
  unfold State.rejectIllegal; split <;> rfl

/-! WAIT (R75) -/

@[simp] theorem State.waitStep_toEngine  (s : State) : (s.waitStep).toEngine = s.toEngine := by
  unfold State.waitStep; split <;> rfl
@[simp] theorem State.waitStep_turn  (s : State) : (s.waitStep).turn = s.turn := by
  unfold State.waitStep; split <;> rfl
@[simp] theorem State.waitStep_schedule  (s : State) : (s.waitStep).schedule = s.schedule := by
  unfold State.waitStep; split <;> rfl
@[simp] theorem State.waitStep_received  (s : State) : (s.waitStep).received = s.received := by
  unfold State.waitStep; split <;> rfl
@[simp] theorem State.waitStep_draws  (s : State) : (s.waitStep).draws = s.draws := by
  unfold State.waitStep; split <;> rfl
@[simp] theorem State.waitStep_powerLost  (s : State) : (s.waitStep).powerLost = s.powerLost := by
  unfold State.waitStep; split <;> rfl

/-! A reset edge (R144) -/

@[simp] theorem State.resetEdge_toEngine (p : Option Access) (s : State) : (s.resetEdge p).toEngine = Engine.reset := by
  cases p <;> rfl
@[simp] theorem State.resetEdge_turn (p : Option Access) (s : State) : (s.resetEdge p).turn = s.turn := by
  cases p <;> rfl
@[simp] theorem State.resetEdge_schedule (p : Option Access) (s : State) : (s.resetEdge p).schedule = s.schedule := by
  cases p <;> rfl
@[simp] theorem State.resetEdge_inputs (p : Option Access) (s : State) : (s.resetEdge p).inputs = s.inputs := by
  cases p <;> rfl
@[simp] theorem State.resetEdge_draws (p : Option Access) (s : State) : (s.resetEdge p).draws = s.draws := by
  cases p <;> rfl
@[simp] theorem State.resetEdge_powerLost (p : Option Access) (s : State) : (s.resetEdge p).powerLost = false := by
  cases p <;> rfl

end Sys2Proof.Machine
end

