-- ==== Sys2Proof/Laws/Operands.lean ====
section
/-! SUPPORT. What the register map and the legality test say: the offset of each register, and the
one access each register is reached by. -/

namespace Sys2Proof.Machine

theorem accessLegal_iff (a : Access) : accessLegal a = true ↔ a.size = 2 ∧ a.addr.toNat % 4 = 0 := by
  have h : (a.addr.extractLsb' 0 2 == 0) = true ↔ a.addr.toNat % 4 = 0 := by
    rw [beq_iff_eq, ← BitVec.toNat_inj]
    simp
  simp only [accessLegal, Bool.and_eq_true, h, beq_iff_eq]

/-- A 32-bit access is legal iff its offset is aligned (R56). -/
theorem accessLegal_word (w : Bool) (off : BitVec 10) (v : Word) :
    accessLegal ⟨w, off, 2, v⟩ = true ↔ off.toNat % 4 = 0 := by
  simp [accessLegal_iff]

theorem regAtWord_cases (w : Nat) :
    (w = 0 ∧ regAtWord w = .id) ∨ (w = 1 ∧ regAtWord w = .ctrl) ∨ (w = 2 ∧ regAtWord w = .status) ∨
    (w = 3 ∧ regAtWord w = .cmd) ∨ (∃ i : Fin 8, w = 8 + i.val ∧ regAtWord w = .iv i) ∨
    (∃ i : Fin 64, w = 64 + i.val ∧ regAtWord w = .mask i) ∨
    (∃ i : Fin 64, w = 128 + i.val ∧ regAtWord w = .data i) ∨
    (((4 ≤ w ∧ w < 8) ∨ (16 ≤ w ∧ w < 64) ∨ 192 ≤ w) ∧ regAtWord w = .reserved) := by
  unfold regAtWord
  split_ifs with h0 h1 h2 h3 h4 h5 h6
  · exact .inl ⟨h0, rfl⟩
  · exact .inr (.inl ⟨h1, rfl⟩)
  · exact .inr (.inr (.inl ⟨h2, rfl⟩))
  · exact .inr (.inr (.inr (.inl ⟨h3, rfl⟩)))
  · exact .inr (.inr (.inr (.inr (.inl ⟨⟨w - 8, by omega⟩, by dsimp only; omega, rfl⟩))))
  · exact .inr (.inr (.inr (.inr (.inr (.inl ⟨⟨w - 64, by omega⟩, by dsimp only; omega, rfl⟩)))))
  · exact .inr (.inr (.inr (.inr (.inr (.inr (.inl ⟨⟨w - 128, by omega⟩, by dsimp only; omega, rfl⟩))))))
  · exact .inr (.inr (.inr (.inr (.inr (.inr (.inr ⟨by omega, rfl⟩))))))

theorem regAtWord_iv (i : Fin 8) : regAtWord (8 + i.val) = .iv i := by
  revert i; decide

theorem regAtWord_mask (i : Fin 64) : regAtWord (64 + i.val) = .mask i := by
  revert i; decide

theorem regAtWord_data (i : Fin 64) : regAtWord (128 + i.val) = .data i := by
  revert i; decide

theorem regAt_iv {off : BitVec 10} (i : Fin 8) (h : off.toNat = 0x020 + 4 * i.val) :
    regAt off = .iv i := by
  rw [regAt, show off.toNat / 4 = 8 + i.val by omega, regAtWord_iv]

theorem regAt_mask {off : BitVec 10} (i : Fin 64) (h : off.toNat = 0x100 + 4 * i.val) :
    regAt off = .mask i := by
  rw [regAt, show off.toNat / 4 = 64 + i.val by omega, regAtWord_mask]

theorem regAt_data {off : BitVec 10} (i : Fin 64) (h : off.toNat = 0x200 + 4 * i.val) :
    regAt off = .data i := by
  rw [regAt, show off.toNat / 4 = 128 + i.val by omega, regAtWord_data]

theorem regAt_reserved {off : BitVec 10} (h : ReservedOffset off.toNat) : regAt off = .reserved := by
  obtain ⟨h4, hr⟩ := h
  rcases regAtWord_cases (off.toNat / 4) with
    ⟨e, _⟩ | ⟨e, _⟩ | ⟨e, _⟩ | ⟨e, _⟩ | ⟨i, e, _⟩ | ⟨i, e, _⟩ | ⟨i, e, _⟩ | ⟨_, e⟩
  · omega
  · omega
  · omega
  · omega
  · have := i.isLt; omega
  · have := i.isLt; omega
  · have := i.isLt; omega
  · exact e

/-- Every aligned offset is the offset of the register it reaches, reserved ones apart. -/
theorem offset_of_regAt {off : BitVec 10} (h4 : off.toNat % 4 = 0) (h : regAt off ≠ .reserved) :
    off = (regAt off).offset := by
  unfold regAt at h ⊢
  rcases regAtWord_cases (off.toNat / 4) with
    ⟨e, r⟩ | ⟨e, r⟩ | ⟨e, r⟩ | ⟨e, r⟩ | ⟨i, e, r⟩ | ⟨i, e, r⟩ | ⟨i, e, r⟩ | ⟨_, r⟩
  all_goals rw [r] at h ⊢
  all_goals first
    | exact absurd rfl h
    | (apply BitVec.eq_of_toNat_eq; simp only [Reg.offset, BitVec.toNat_ofNat]; omega)
    | (apply BitVec.eq_of_toNat_eq; simp [Reg.offset]; omega)

@[simp] theorem regAt_offset_iv (i : Fin 8) : regAt (Reg.offset (.iv i)) = .iv i := by
  apply regAt_iv; simp only [Reg.offset, BitVec.toNat_ofNat]; omega

@[simp] theorem regAt_offset_mask (i : Fin 64) : regAt (Reg.offset (.mask i)) = .mask i := by
  apply regAt_mask; simp only [Reg.offset, BitVec.toNat_ofNat]; omega

@[simp] theorem regAt_offset_data (i : Fin 64) : regAt (Reg.offset (.data i)) = .data i := by
  apply regAt_data; simp only [Reg.offset, BitVec.toNat_ofNat]; omega

@[simp] theorem regAt_cmd : regAt 12#10 = .cmd := by decide

@[simp] theorem regAt_ctrl : regAt 4#10 = .ctrl := by decide

@[simp] theorem regAt_status : regAt 8#10 = .status := by decide

@[simp] theorem regAt_id : regAt 0#10 = .id := by decide

/-- The bit WAIT looks at is BUSY. -/
@[simp] theorem Engine.statusWord_bit_zero (e : Engine) : e.statusWord[0] = e.busy := by
  simp [Engine.statusWord, bitAt]

end Sys2Proof.Machine
end

