-- ==== Sys2Proof/Laws/Ops.lean ====
section
/-! SUPPORT. For each shared operation, one lemma that says once everything it can do. -/

namespace Sys2Proof.Machine

@[simp] theorem tabulate_getElem (n : Nat) (f : Fin n → Word) (i : Nat) (h : i < n) :
    (tabulate n f)[i] = f ⟨i, h⟩ := by
  simp [tabulate]

@[simp] theorem tabulate_getElem_fin (n : Nat) (f : Fin n → Word) (i : Fin n) :
    (tabulate n f)[i] = f i := tabulate_getElem n f i.val i.isLt

/-- The commands that need a chaining state (R102). -/
def needsMask (i : Instr) : Bool :=
  match i with
  | .encblk | .decblk => true
  | .nop | .keysched | .perm | .unperm | .setmask | .clear => false

/-- The pseudocode of each command (R104). -/
def effectOf (i : Instr) : Engine → Engine :=
  match i with
  | .nop => nopEffect
  | .keysched => keyschedEffect
  | .encblk => encblkEffect Config.perm
  | .decblk => decblkEffect Config.unperm
  | .perm => permEffect Config.perm
  | .unperm => unpermEffect Config.unperm
  | .setmask => setmaskEffect
  | .clear => clearEffect

/-- Every arm of exec is the lifecycle of its command around its pseudocode. -/
theorem exec_eq_lifecycle (i : Instr) (s : State) :
    exec i s = s.lifecycle i (needsMask i) (effectOf i) := by
  cases i <;> rfl

theorem needsMask_iff (i : Instr) : needsMask i = true ↔ i = .encblk ∨ i = .decblk := by
  cases i <;> decide

/-- The pseudocodes leave IE, BUSY, DONE, ERR, ERRCODE and PENDING alone. -/
theorem effectOf_frame (i : Instr) (e : Engine) :
    (effectOf i e).ie = e.ie ∧ (effectOf i e).busy = e.busy ∧ (effectOf i e).done = e.done ∧
    (effectOf i e).err = e.err ∧ (effectOf i e).errcode = e.errcode ∧
    (effectOf i e).pending = e.pending := by
  cases i <;> exact ⟨rfl, rfl, rfl, rfl, rfl, rfl⟩

/-- `raise CmdError` on the machine is the recording of an error the statements speak of. -/
theorem State.cmdError_eq_withError (code : BitVec 4) (s : State) :
    s.cmdError code = s.withError code := rfl

/-- What the issue of a command can do (R102). -/
theorem State.issue_cases (i : Instr) (n : Bool) (s : State) :
    (s.busy = true ∧ s.issue i n = s.withError 2) ∨
    (s.busy = false ∧ n = true ∧ s.maskValid = false ∧ s.issue i n = s.withError 3) ∨
    (s.busy = false ∧ (n = true → s.maskValid = true) ∧
      s.issue i n = { s with pending := some i, busy := true, done := false }) := by
  cases hb : s.busy
  · cases hn : n <;> cases hm : s.maskValid
    · exact .inr (.inr ⟨rfl, by simp, by simp [State.issue, hb, hm]⟩)
    · exact .inr (.inr ⟨rfl, by simp, by simp [State.issue, hb, hm]⟩)
    · exact .inr (.inl ⟨rfl, rfl, rfl, by
        simp [State.issue, hb, hm, State.cmdError_eq_withError, codeMaskInvalid]⟩)
    · exact .inr (.inr ⟨rfl, by simp, by simp [State.issue, hb, hm]⟩)
  · exact .inl ⟨rfl, by simp [State.issue, hb, State.cmdError_eq_withError, codeBusy]⟩

/-- What a command can do in one event (R102, R103): it always answers a next state. -/
theorem exec_cases (i : Instr) (s : State) :
    (s.turn = .host ∧ exec i s = .next (s.issue i (needsMask i))) ∨
    (s.AtCompletion i ∧ exec i s = .next (s.complete (effectOf i))) ∨
    (s.turn = .engine ∧ ¬ (s.busy = true ∧ s.pending = some i) ∧ exec i s = .next s) := by
  rw [exec_eq_lifecycle, State.lifecycle]
  cases ht : s.turn
  · exact .inl ⟨rfl, rfl⟩
  · by_cases h : s.busy = true ∧ s.pending = some i
    · exact .inr (.inl ⟨⟨ht, h.1, h.2⟩, by simp [h]⟩)
    · exact .inr (.inr ⟨rfl, h, by simp [h]⟩)

/-- What a word written to CMD can do (R102). -/
theorem issueWord_cases (v : Word) (s : State) :
    (∃ i, decode v = .ok i ∧ issueWord v s = exec i s) ∨
    (∃ d, decode v = .error d ∧ issueWord v s = .next (s.withError (if s.busy = true then 2 else 1))) := by
  unfold issueWord
  cases hd : decode v with
  | ok i => exact .inl ⟨i, rfl, rfl⟩
  | error d =>
    refine .inr ⟨d, rfl, ?_⟩
    cases hb : s.busy <;>
      simp [State.rejectIllegal, hb, State.cmdError_eq_withError, codeBusy, codeIllegal]

/-- What a write to a register other than CMD can do to the engine (R47 to R52). -/
theorem Engine.writeReg_cases (r : Reg) (v : Word) (e : Engine) :
    (r = .ctrl ∧ e.writeReg r v = { e with ie := v.getLsbD 0 }) ∨
    (r = .status ∧ e.writeReg r v = e.writeStatus v) ∨
    (∃ i, r = .iv i ∧ e.busy = false ∧ e.writeReg r v = { e with iv := e.iv.set i v }) ∨
    (∃ i, r = .data i ∧ e.busy = false ∧ e.writeReg r v = { e with data := e.data.set i v }) ∨
    (((∃ i, r = .iv i) ∨ (∃ i, r = .data i)) ∧ e.busy = true ∧ e.writeReg r v = e.cmdError 2) ∨
    ((r = .id ∨ (∃ i, r = .mask i) ∨ r = .reserved ∨ r = .cmd) ∧ e.writeReg r v = e) := by
  cases r with
  | id => exact .inr (.inr (.inr (.inr (.inr ⟨.inl rfl, rfl⟩))))
  | ctrl => exact .inl ⟨rfl, rfl⟩
  | status => exact .inr (.inl ⟨rfl, rfl⟩)
  | cmd => exact .inr (.inr (.inr (.inr (.inr ⟨.inr (.inr (.inr rfl)), rfl⟩))))
  | iv i =>
    cases hb : e.busy
    · exact .inr (.inr (.inl ⟨i, rfl, rfl, by simp [Engine.writeReg, hb]⟩))
    · exact .inr (.inr (.inr (.inr (.inl ⟨.inl ⟨i, rfl⟩, rfl, by
        simp [Engine.writeReg, hb, codeBusy]⟩))))
  | mask i => exact .inr (.inr (.inr (.inr (.inr ⟨.inr (.inl ⟨i, rfl⟩), rfl⟩))))
  | data i =>
    cases hb : e.busy
    · exact .inr (.inr (.inr (.inl ⟨i, rfl, rfl, by simp [Engine.writeReg, hb]⟩)))
    · exact .inr (.inr (.inr (.inr (.inl ⟨.inr ⟨i, rfl⟩, rfl, by
        simp [Engine.writeReg, hb, codeBusy]⟩))))
  | reserved => exact .inr (.inr (.inr (.inr (.inr ⟨.inr (.inr (.inl rfl)), rfl⟩))))

/-- WAIT goes on while BUSY is set (R75). -/
theorem State.waitStep_eq (s : State) :
    s.waitStep = if s.busy then { s with inputs := .wait :: s.inputs } else s := by
  simp [State.waitStep, State.readValue, State.readIsFree, Reg.inFile, Engine.readReg]

end Sys2Proof.Machine
end

