-- ==== Sys2Proof/Laws/PerInstr.lean ====
section
/-! SUPPORT. Statements about all commands, made per command. -/

namespace Sys2Proof.Laws

/-- The command word of `i` has the format of R68: `MBZ` is zero, `OP` is the opcode of R71, and the
word passes the format checks of WellFormed.lean. -/
def EncodingFormat.Statement (i : Instr) : Prop :=
  mbzField (encode i) = 0 ∧ opField (encode i) = opOfInstr i ∧ CmdWord.wellFormed (encode i) = true

theorem EncodingFormat.nop : EncodingFormat.Statement .nop := by
  unfold EncodingFormat.Statement; decide

theorem EncodingFormat.keysched : EncodingFormat.Statement .keysched := by
  unfold EncodingFormat.Statement; decide

theorem EncodingFormat.encblk : EncodingFormat.Statement .encblk := by
  unfold EncodingFormat.Statement; decide

theorem EncodingFormat.decblk : EncodingFormat.Statement .decblk := by
  unfold EncodingFormat.Statement; decide

theorem EncodingFormat.perm : EncodingFormat.Statement .perm := by
  unfold EncodingFormat.Statement; decide

theorem EncodingFormat.unperm : EncodingFormat.Statement .unperm := by
  unfold EncodingFormat.Statement; decide

theorem EncodingFormat.setmask : EncodingFormat.Statement .setmask := by
  unfold EncodingFormat.Statement; decide

theorem EncodingFormat.clear : EncodingFormat.Statement .clear := by
  unfold EncodingFormat.Statement; decide

end Sys2Proof.Laws
end

