-- ==== Sys2Proof/Laws/Step.lean ====
section
/-! SUPPORT. What one step can do, said once: every invariant and every frame follows from it. -/

namespace Sys2Proof.Machine

theorem regAt_cmd_iff {off : BitVec 10} (h4 : off.toNat % 4 = 0) : regAt off = .cmd ↔ off = 0x00C := by
  refine ⟨fun h => ?_, fun h => h ▸ regAt_cmd⟩
  have := offset_of_regAt h4 (by rw [h]; decide)
  rwa [h] at this

/-- A legal read (R46). -/
theorem step_of_read {s : State} {a : Access} {o : OnBusError} {rest : List Input}
    (h : s.HostNext (.access a o) rest) (hl : accessLegal a = true) (hw : a.write = false) :
    step s = .next ((s.afterInput rest).regRead (regAt a.addr)) := by
  obtain ⟨hm, hp, hi⟩ := h
  simp [step, hm, hostStep, hi, present, hp, transact, hl, legalAccess, hw, State.afterInput]

/-- A legal write to a register other than CMD (R47). -/
theorem step_of_write {s : State} {a : Access} {o : OnBusError} {rest : List Input}
    (h : s.HostNext (.access a o) rest) (hl : accessLegal a = true) (hw : a.write = true)
    (hc : regAt a.addr ≠ .cmd) :
    step s = .next ((s.afterInput rest).regWrite (regAt a.addr) a.wdata) := by
  obtain ⟨hm, hp, hi⟩ := h
  simp [step, hm, hostStep, hi, present, hp, transact, hl, legalAccess, hw, hc, State.afterInput]

/-- A legal write to CMD (R102). -/
theorem step_of_cmdWrite {s : State} {a : Access} {o : OnBusError} {rest : List Input}
    (h : s.HostNext (.access a o) rest) (hl : accessLegal a = true) (hw : a.write = true)
    (hc : regAt a.addr = .cmd) :
    step s = issueWord a.wdata ((s.afterInput rest).answer .writeDone) := by
  obtain ⟨hm, hp, hi⟩ := h
  simp [step, hm, hostStep, hi, present, hp, transact, hl, legalAccess, hw, hc, State.afterInput]

/-- An access that R56 rejects (R57). -/
theorem step_of_illegal {s : State} {a : Access} {o : OnBusError} {rest : List Input}
    (h : s.HostNext (.access a o) rest) (hl : accessLegal a = false) :
    step s = match o with
      | .stop => .fault .busError
      | .handle => .next ((s.afterInput rest).answer (busErrorResponse a)) := by
  obtain ⟨hm, hp, hi⟩ := h
  cases o <;> simp [step, hm, hostStep, hi, present, hp, transact, hl, State.afterInput]

/-- WAIT (R75). -/
theorem step_of_wait {s : State} {rest : List Input} (h : s.HostNext .wait rest) :
    step s = .next (s.afterInput rest).waitStep := by
  obtain ⟨hm, hp, hi⟩ := h
  simp [step, hm, hostStep, hi, present, hp, State.afterInput]

/-- Without power and without a reset edge the engine is stuck (R143, U16): the step goes on, and the
power is still lost. -/
theorem step_without_power {s : State} (hp : s.powerLost = true) :
    (∃ p rest, s.mover = .host ∧ s.inputs = .resetEdge p :: rest ∧
      step s = .next ((s.afterInput rest).resetEdge p)) ∨
    (∃ t, step s = .next t ∧ t.powerLost = true) := by
  cases hm : s.mover with
  | engine => exact .inr ⟨(s.take .engine).withoutState, by simp [step, hm, engineStep, hp], by simpa using hp⟩
  | host =>
    match hi : s.inputs with
    | [] => exact .inr ⟨(s.take .host).withoutState, by simp [step, hm, hostStep, hi, hp], by simpa using hp⟩
    | .resetEdge p :: rest =>
      exact .inl ⟨p, rest, rfl, rfl, by simp [step, hm, hostStep, hi, present, State.afterInput]⟩
    | .powerLoss :: rest =>
      exact .inr ⟨(s.afterInput rest).losePower,
        by simp [step, hm, hostStep, hi, present, State.afterInput], by simp⟩
    | .wait :: rest | .access _ _ :: rest =>
      exact .inr ⟨(s.afterInput rest).unanswered,
        by simp [step, hm, hostStep, hi, present, hp, State.afterInput], by simpa using hp⟩

/-- Everything a step can do, if it answers a next state. -/
theorem step_cases {s t : State} (h : step s = .next t) :
    -- the engine's event: a completion (R103), or nothing
    (s.mover = .engine ∧ s.powerLost = false ∧ s.busy = true ∧
      ∃ i, s.pending = some i ∧ t = (s.take .engine).complete (effectOf i)) ∨
    (s.mover = .engine ∧ (s.powerLost = true ∨ s.busy = false ∨ s.pending = none) ∧
      t = (s.take .engine).idle) ∨
    -- the host's event with nothing presented
    (s.mover = .host ∧ s.inputs = [] ∧ t = (s.take .host).idle) ∨
    -- the platform's events
    (∃ p rest, s.mover = .host ∧ s.inputs = .resetEdge p :: rest ∧
      t = (s.afterInput rest).resetEdge p) ∨
    (∃ rest, s.mover = .host ∧ s.inputs = .powerLoss :: rest ∧ t = (s.afterInput rest).losePower) ∨
    -- a host statement that reaches a stuck engine (U16)
    (∃ inp rest, s.mover = .host ∧ s.powerLost = true ∧ s.inputs = inp :: rest ∧
      (inp = .wait ∨ ∃ a o, inp = .access a o) ∧ t = (s.afterInput rest).unanswered) ∨
    -- the host's transactions
    (∃ rest, s.HostNext .wait rest ∧ t = (s.afterInput rest).waitStep) ∨
    (∃ a rest, s.HostNext (.access a .handle) rest ∧ accessLegal a = false ∧
      t = (s.afterInput rest).answer (busErrorResponse a)) ∨
    (∃ a o rest, s.HostNext (.access a o) rest ∧ accessLegal a = true ∧ a.write = false ∧
      t = (s.afterInput rest).regRead (regAt a.addr)) ∨
    (∃ a o rest, s.HostNext (.access a o) rest ∧ accessLegal a = true ∧ a.write = true ∧
      regAt a.addr ≠ .cmd ∧ t = (s.afterInput rest).regWrite (regAt a.addr) a.wdata) ∨
    (∃ a o rest i, s.HostNext (.access a o) rest ∧ accessLegal a = true ∧ a.write = true ∧
      a.addr = 0x00C ∧ decode a.wdata = .ok i ∧
      t = ((s.afterInput rest).answer .writeDone).issue i (needsMask i)) ∨
    (∃ a o rest d, s.HostNext (.access a o) rest ∧ accessLegal a = true ∧ a.write = true ∧
      a.addr = 0x00C ∧ decode a.wdata = .error d ∧
      t = ((s.afterInput rest).answer .writeDone).withError (if s.busy = true then 2 else 1)) := by
  cases hm : s.mover with
  | engine =>
    cases hp : s.powerLost with
    | true =>
      refine .inr (.inl ⟨rfl, .inl rfl, ?_⟩)
      simpa [step, hm, engineStep, hp] using h.symm
    | false =>
      cases hb : s.busy with
      | false =>
        refine .inr (.inl ⟨rfl, .inr (.inl rfl), ?_⟩)
        simpa [step, hm, engineStep, hp, hb] using h.symm
      | true =>
        cases hpe : s.pending with
        | none =>
          refine .inr (.inl ⟨rfl, .inr (.inr rfl), ?_⟩)
          simpa [step, hm, engineStep, hp, hb, hpe] using h.symm
        | some i =>
          refine .inl ⟨rfl, rfl, rfl, i, rfl, ?_⟩
          simpa [step, hm, engineStep, hp, hb, hpe, exec_eq_lifecycle, State.lifecycle] using h.symm
  | host =>
    cases hi : s.inputs with
    | nil =>
      refine .inr (.inr (.inl ⟨rfl, rfl, ?_⟩))
      simpa [step, hm, hostStep, hi] using h.symm
    | cons inp rest =>
      cases inp with
      | resetEdge p =>
        refine .inr (.inr (.inr (.inl ⟨p, rest, rfl, rfl, ?_⟩)))
        simpa [step, hm, hostStep, hi, present, State.afterInput] using h.symm
      | powerLoss =>
        refine .inr (.inr (.inr (.inr (.inl ⟨rest, rfl, rfl, ?_⟩))))
        simpa [step, hm, hostStep, hi, present, State.afterInput] using h.symm
      | wait =>
        cases hp : s.powerLost with
        | true =>
          refine .inr (.inr (.inr (.inr (.inr (.inl ⟨_, rest, rfl, rfl, rfl, .inl rfl, ?_⟩)))))
          simpa [step, hm, hostStep, hi, present, hp, State.afterInput] using h.symm
        | false =>
          have hn : s.HostNext .wait rest := ⟨hm, hp, hi⟩
          rw [step_of_wait hn] at h
          exact .inr (.inr (.inr (.inr (.inr (.inr (.inl ⟨rest, ⟨hm, hp, hi⟩, by simpa using h.symm⟩))))))
      | access a o =>
        cases hp : s.powerLost with
        | true =>
          refine .inr (.inr (.inr (.inr (.inr (.inl ⟨_, rest, rfl, rfl, rfl, .inr ⟨a, o, rfl⟩, ?_⟩)))))
          simpa [step, hm, hostStep, hi, present, hp, State.afterInput] using h.symm
        | false =>
          have hn : s.HostNext (.access a o) rest := ⟨hm, hp, hi⟩
          iterate 7 right
          cases hl : accessLegal a with
          | false =>
            rw [step_of_illegal hn hl] at h
            cases o with
            | stop => cases h
            | handle => exact .inl ⟨a, rest, ⟨hm, hp, hi⟩, hl, by simpa using h.symm⟩
          | true =>
            cases hw : a.write with
            | false =>
              rw [step_of_read hn hl hw] at h
              exact .inr (.inl ⟨a, o, rest, ⟨hm, hp, hi⟩, hl, hw, by simpa using h.symm⟩)
            | true =>
              by_cases hc : regAt a.addr = .cmd
              · rw [step_of_cmdWrite hn hl hw hc] at h
                have ha := (regAt_cmd_iff ((accessLegal_iff a).1 hl).2).1 hc
                rcases issueWord_cases a.wdata ((s.afterInput rest).answer .writeDone) with
                  ⟨i, hd, he⟩ | ⟨d, hd, he⟩
                · rw [he, exec_eq_lifecycle] at h
                  exact .inr (.inr (.inr (.inl ⟨a, o, rest, i, ⟨hm, hp, hi⟩, hl, hw, ha, hd, by
                    simpa [State.lifecycle] using h.symm⟩)))
                · rw [he] at h
                  injection h with h
                  exact .inr (.inr (.inr (.inr ⟨a, o, rest, d, ⟨hm, hp, hi⟩, hl, hw, ha, hd, h.symm⟩)))
              · rw [step_of_write hn hl hw hc] at h
                exact .inr (.inr (.inl ⟨a, o, rest, ⟨hm, hp, hi⟩, hl, hw, hc, by simpa using h.symm⟩))

end Sys2Proof.Machine
end

