-- ==== Sys2Proof/Laws/Reach.lean ====
section
/-! SUPPORT. Runs: an idle engine reaches the next input whatever the order of events. -/

namespace Sys2Proof.Machine

theorem Reaches.trans {s t u : State} (h : Reaches s t) (h' : Reaches t u) : Reaches s u := by
  induction h' with
  | refl => exact h
  | tail _ e ih => exact .tail ih e

theorem Reaches.single {s t : State} (h : step s = .next t) : Reaches s t := .tail (.refl s) h

theorem Reaches.head {s t u : State} (h : step s = .next t) (h' : Reaches t u) : Reaches s u :=
  (Reaches.single h).trans h'

/-- An idle engine with power only waits at its own events: the host's next event is reached with nothing
changed but the order still to come. -/
theorem reaches_host_turn (s : State) (hb : s.busy = false) (hl : s.powerLost = false) :
    ∃ order turn, Reaches s { s with schedule := order, turn := turn } ∧
      ({ s with schedule := order, turn := turn } : State).mover = .host := by
  obtain ⟨e, turn, schedule, inputs, received, draws, powerLost⟩ := s
  induction schedule generalizing turn with
  | nil => exact ⟨[], turn, .refl _, by simp_all [State.mover]⟩
  | cons a order ih =>
    cases a with
    | host => exact ⟨.host :: order, turn, .refl _, rfl⟩
    | engine =>
      obtain ⟨order', turn', hr, hm⟩ := ih .engine hb hl
      refine ⟨order', turn', .head ?_ hr, hm⟩
      simp_all [step, State.mover, engineStep, State.take]

/-- A pending command of a powered engine completes while the host waits (R75, R155), and the WAIT
is passed. -/
theorem reaches_wait_end (s : State) (rest : List Input) (i : Instr) (hb : s.busy = true)
    (hp : s.pending = some i) (hl : s.powerLost = false) (hi : s.inputs = .wait :: rest) :
    ∃ order turn, Reaches s { (s.complete (effectOf i)) with schedule := order, turn := turn, inputs := rest } := by
  have last : ∀ order turn, ∃ order' turn', Reaches
      { (s.complete (effectOf i)) with schedule := order, turn := turn }
      { (s.complete (effectOf i)) with schedule := order', turn := turn', inputs := rest } := by
    intro order turn
    obtain ⟨order', turn', hr, hm⟩ :=
      reaches_host_turn { (s.complete (effectOf i)) with schedule := order, turn := turn } rfl (by simpa using hl)
    refine ⟨order'.tail, .host, hr.trans (.single ?_)⟩
    rw [step_of_wait (rest := rest) ⟨hm, by simpa using hl, by simpa using hi⟩, State.waitStep_eq]
    simp [State.afterInput, State.take, State.complete]
  obtain ⟨e, turn, schedule, inputs, received, draws, powerLost⟩ := s
  subst hi hl
  have done : ∀ order turn, step ⟨e, turn, order, .wait :: rest, received, draws, false⟩ =
      .next ((⟨e, .engine, order.tail, .wait :: rest, received, draws, false⟩ : State).complete (effectOf i)) ∨
      order.head? = some .host := by
    intro order turn
    match order with
    | [] => exact .inl (by simp_all [step, State.mover, engineStep, State.take, exec_eq_lifecycle, State.lifecycle])
    | .engine :: _ => exact .inl (by simp_all [step, State.mover, engineStep, State.take, exec_eq_lifecycle, State.lifecycle])
    | .host :: _ => exact .inr rfl
  induction schedule generalizing turn with
  | nil =>
    rcases done [] turn with h | h
    · obtain ⟨o, t, hr⟩ := last [] .engine
      exact ⟨o, t, .head h hr⟩
    · simp at h
  | cons a order ih =>
    cases a with
    | engine =>
      rcases done (.engine :: order) turn with h | h
      · obtain ⟨o, t, hr⟩ := last order .engine
        exact ⟨o, t, .head h hr⟩
      · simp at h
    | host =>
      obtain ⟨o, t, hr⟩ := ih .host hb hp last
      refine ⟨o, t, .head ?_ hr⟩
      rw [step_of_wait (rest := rest) ⟨rfl, rfl, rfl⟩, State.waitStep_eq]
      simp_all [State.afterInput, State.take]

end Sys2Proof.Machine
end

