-- ==== Sys2Proof/Tests/Slice0.lean ====
section
/-! SUPPORT. Tests. Expected values come from spec/95_test_vectors.md (the entry is named in each
comment) or are written out by hand from the rule named. -/

namespace Sys2Proof.Tests

open Sys2Proof Sys2Proof.Machine

/-! ### WellFormed: each check refuses an ill-formed term (R56, R68) -/

theorem test_wf_refuses_mbz : CmdWord.wellFormed 0x00000010 = false := by decide

theorem test_wf_refuses_op : CmdWord.wellFormed 0x00000008 = false := by decide

theorem test_wf_refuses_size : Access.wellFormed ⟨false, 0x200, 1, 0⟩ = false := by decide

theorem test_wf_refuses_misaligned : Access.wellFormed ⟨false, 0x202, 2, 0⟩ = false := by decide

theorem test_wf_refuses_input : Input.wellFormed (.access ⟨true, 0x201, 0, 0xFF⟩ .stop) = false := by decide

theorem test_wf_accepts : CmdWord.wellFormed 7 = true ∧ Access.wellFormed ⟨true, 0x3FC, 2, 0⟩ = true := by decide

/-! ### Decoding, from the words of R71 bit by bit -/

theorem test_decode_nop : decode 0b00000000000000000000000000000000 = .ok .nop := by decide

theorem test_decode_keysched : decode 0b00000000000000000000000000000001 = .ok .keysched := by decide

theorem test_decode_encblk : decode 0b00000000000000000000000000000010 = .ok .encblk := by decide

theorem test_decode_decblk : decode 0b00000000000000000000000000000011 = .ok .decblk := by decide

theorem test_decode_perm : decode 0b00000000000000000000000000000100 = .ok .perm := by decide

theorem test_decode_unperm : decode 0b00000000000000000000000000000101 = .ok .unperm := by decide

theorem test_decode_setmask : decode 0b00000000000000000000000000000110 = .ok .setmask := by decide

theorem test_decode_clear : decode 0b00000000000000000000000000000111 = .ok .clear := by decide

/-- R72: the first word past the opcodes, the last of `OP`, the first and the last of `MBZ`. -/
theorem test_decode_illegal :
    decode 0x8 = .error .reservedOp ∧ decode 0xF = .error .reservedOp ∧
    decode 0x10 = .error .mbzNotZero ∧ decode 0x80000001 = .error .mbzNotZero := by decide

theorem test_decodeTableWord : decodeTableWord 32 6 = some .setmask ∧ decodeTableWord 32 9 = none := by decide

/-! ### States for the tests -/

/-- The reset state with another engine, at the host's event, with inputs. -/
def hostAt (e : Engine) (inputs : List Input) : State :=
  { State.reset with toEngine := e, inputs := inputs, schedule := [.host] }

/-- The reset state with another engine, the event laid down being the engine's. -/
def engineAt (e : Engine) : State := { State.reset with toEngine := e, schedule := [.engine] }

/-- Command `i` pending in engine `e`. -/
def pendingIn (i : Instr) (e : Engine) : Engine := { e with busy := true, pending := some i }

/-- Command `i` pending, at its completion. -/
def completing (i : Instr) (e : Engine) : State :=
  { State.reset with toEngine := pendingIn i e, turn := .engine }

/-- The engine of a state that a step answers, or of reset. -/
def engineOf (o : Outcome) : Engine :=
  match o with
  | .next s => s.toEngine
  | .fault _ | .refused _ => Engine.reset

/-- The newest answer in a state that a step answers. -/
def answerOf (o : Outcome) : Option Response :=
  match o with
  | .next s => s.received.head?
  | .fault _ | .refused _ => none

/-- A step answers a next state, in which the engine has power. -/
def staysPowered (o : Outcome) : Bool :=
  match o with
  | .next s => !s.powerLost
  | .fault _ | .refused _ => false

/-- The engine after one host input. -/
def after (e : Engine) (inp : Input) : Engine := engineOf (step (hostAt e [inp]))

/-- Vector PAT1-like ramp: `DATA[i] = i` (R89). -/
def ramp : Block := tabulate 64 fun i => BitVec.ofNat 32 i.val

/-! ### Key schedule (95_test_vectors.md 2.1) -/

/-- The example of R82: IV bytes 0x00 to 0x1F. -/
def ramp32 : IvFile := #v[0x03020100, 0x07060504, 0x0B0A0908, 0x0F0E0D0C,
  0x13121110, 0x17161514, 0x1B1A1918, 0x1F1E1D1C]

/-- KS3 at words 0, 8, 56, 63. -/
theorem test_keysched_ks3 :
    let m := (engineOf (exec .keysched (completing .keysched { Engine.reset with iv := ramp32 }))).mask
    m[0] = 0x03020100 ∧ m[8] = 0x06040200 ∧ m[56] = 0x81018000 ∧ m[63] = 0x8F0F8E0E := by decide

/-- KS4: wrap of 0x80, 0x81, 0xA5, 0xFF in rows 1, 3 and 7, and MASK_VALID. -/
theorem test_keysched_ks4 :
    let e := engineOf (exec .keysched (completing .keysched
      { Engine.reset with iv := Vector.replicate 8 0xFFA58180 }))
    e.mask[15] = 0xFF4B0301 ∧ e.mask[24] = 0xFF2D0C04 ∧ e.mask[56] = 0xFFD2C040 ∧
      e.statusWord = 0x0000000A := by decide

/-- The corner bytes of 2.1, at 0x7F and 0xA5. -/
theorem test_rotl8 : rotl8 0x7F 7 = 0xBF ∧ rotl8 0xA5 4 = 0x5A ∧ rotl8 0x80 1 = 0x01 ∧ rotl8 0x81 0 = 0x81 := by
  decide

/-! ### Permutation unit and chaining under test doubles (95_test_vectors.md 2.2, 2.3) -/

/-- P-1: TD_LANE on the ramp, both ways. -/
theorem test_perm_td_lane :
    (permEffect tdLanePerm { Engine.reset with data := ramp }).data[63] = 0 ∧
    (permEffect tdLanePerm { Engine.reset with data := ramp }).data[0] = 1 := by decide

theorem test_unperm_td_lane :
    (unpermEffect tdLaneUnperm { Engine.reset with data := ramp }).data[0] = 63 ∧
    (unpermEffect tdLaneUnperm { Engine.reset with data := ramp }).data[1] = 0 := by decide

/-- P-3: TD_MIX on the ramp, both ways. -/
theorem test_td_mix :
    (tdMixPerm ramp)[62] = 0x7E ∧ (tdMixUnperm ramp)[0] = 0x8000001F ∧ (tdMixUnperm ramp)[2] = 0x80000000 := by
  decide

/-- E-1. -/
theorem test_encblk_e1 :
    let e := encblkEffect tdIdPerm { Engine.reset with
      data := Engine.reset.data.set 0 0x12345678, mask := Engine.reset.mask.set 0 0xFFFF0000 }
    e.data[0] = 0xEDCB5678 ∧ e.mask[0] = 0xEDCB5678 := by decide

/-- E-2. -/
theorem test_decblk_e2 :
    let e := decblkEffect tdIdUnperm { Engine.reset with
      data := Engine.reset.data.set 0 0xEDCB5678, mask := Engine.reset.mask.set 0 0xFFFF0000 }
    e.data[0] = 0x12345678 ∧ e.mask[0] = 0xEDCB5678 := by decide

/-- E-4: ENCBLK after reset is rejected with code 3. -/
theorem test_encblk_e4 : (after Engine.reset (cmd .encblk)).statusWord = 0x00000304 := by decide

/-- E-5. -/
theorem test_decblk_e5 : (after Engine.reset (cmd .decblk)).statusWord = 0x00000304 := by decide

/-- E-6. -/
theorem test_setmask_e6 :
    let e := engineOf (exec .setmask (completing .setmask
      { Engine.reset with data := Engine.reset.data.set 5 0xCAFEF00D }))
    e.mask[5] = 0xCAFEF00D ∧ e.statusWord = 0x0000000A := by decide

/-! ### Control (95_test_vectors.md 2.4) -/

/-- C-1: NOP issued with IE = 1, before completion. -/
theorem test_nop_c1 :
    let e := after { Engine.reset with ie := true } (cmd .nop)
    e.statusWord = 0x00000001 ∧ e.irq = false ∧ e.pending = some .nop := by decide

/-- C-2: its completion. -/
theorem test_nop_c2 :
    let e := engineOf (step (engineAt (pendingIn .nop { Engine.reset with ie := true })))
    e.statusWord = 0x00000002 ∧ e.irq = true ∧ e.pending = none := by decide

/-- C-4. -/
theorem test_clear_c4 :
    let e := engineOf (exec .clear (completing .clear { Engine.reset with
      maskValid := true, err := true, errcode := 3, data := ramp, iv := ramp32, mask := ramp }))
    e.statusWord = 0x00000306 ∧ e.data[63] = 0 ∧ e.iv[0] = 0 ∧ e.mask[1] = 0 := by decide

/-! ### Register interface, program P4 row by row (95_test_vectors.md 3.4, 2.5) -/

/-- P4 rows 2, 3, 6: code 3; the first code kept; code 1. -/
theorem test_p4_errors :
    (after { Engine.reset with ie := true, err := true, errcode := 3 } (wr 0x00C 0x10)).statusWord = 0x00000304 ∧
    (after Engine.reset (wr 0x00C 0x8)).statusWord = 0x00000104 := by decide

/-- P4 rows 9, 10: writes while busy. -/
theorem test_p4_busy :
    (after (pendingIn .nop Engine.reset) (wr 0x200 0x12345678)).statusWord = 0x00000205 ∧
    (after (pendingIn .nop { Engine.reset with err := true, errcode := 2 }) (cmd .keysched)).statusWord = 0x00000205 ∧
    (after (pendingIn .nop Engine.reset) (wr 0x00C 0xFFFFFFFF)).statusWord = 0x00000205 := by decide

/-- P4 rows 4, 15, 16 and I-1, I-6: reads. -/
theorem test_p4_reads :
    answerOf (step (hostAt { Engine.reset with err := true, errcode := 3 } [rd 0x008])) = some (.value 0x00000304) ∧
    answerOf (step (hostAt Engine.reset [rd 0x010])) = some (.value 0) ∧
    answerOf (step (hostAt Engine.reset [rd 0x000])) = some (.value 0x50435259) ∧
    answerOf (step (hostAt Engine.reset [rd 0x00C])) = some (.value 0) ∧
    answerOf (step (hostAt { Engine.reset with data := ramp } [rd 0x2FC])) = some (.value 63) := by decide

/-- P4 rows 13, 17, 18: MASK is read-only; a byte write gets a bus error; both acknowledgements. -/
theorem test_p4_writes :
    (after Engine.reset (wr 0x100 0xFFFFFFFF)).mask[0] = 0 ∧
    (after { Engine.reset with done := true, err := true, errcode := 2 }
      (.access ⟨true, 0x201, 0, 0xFF⟩ .handle)).statusWord = 0x00000206 ∧
    (after { Engine.reset with done := true, err := true, errcode := 2 } (wr 0x008 6)).statusWord = 0 := by decide

/-- I-2, I-3, I-7. -/
theorem test_interface_writes :
    (after Engine.reset (wr 0x004 0xFFFFFFFF)).ctrlWord = 1 ∧
    (after { Engine.reset with done := true, maskValid := true } (wr 0x008 0x9)).statusWord = 0x0000000A ∧
    (after Engine.reset (wr 0x020 7)).iv[0] = 7 ∧ (after Engine.reset (wr 0x03C 9)).iv[7] = 9 := by decide

/-- R144: a reset edge discards a pending command; a read at it returns 0. -/
theorem test_reset_edge :
    after (pendingIn .clear { Engine.reset with data := ramp }) (.resetEdge (some ⟨false, 0x000, 2, 0⟩)) = Engine.reset ∧
    answerOf (step (hostAt Engine.reset [.resetEdge (some ⟨false, 0x000, 2, 0⟩)])) = some (.value 0) := by decide

/-- The table's word is the first command after reset. -/
theorem test_withFetchWord :
    (engineOf (step (State.reset.withFetchWord 32 1))).pending = some .keysched := by decide

/-! ### Host framing (95_test_vectors.md 2.6) -/

/-- F1: pad lengths and markers. -/
theorem test_pad : padLen 0 = 256 ∧ padMarker 0 = 0x00 ∧ padLen 10 = 246 ∧ padMarker 10 = 0xF6 ∧
    padLen 255 = 1 ∧ padMarker 256 = 0x00 ∧ padMarker 300 = 0xD4 := by decide

/-! ### Witnesses: each statement's hypotheses are met -/

theorem witness_decoder_clauses :
    ((0x10 : Word).toNat / 16 ≠ 0) ∧ ((0x8 : Word).toNat / 16 = 0 ∧ 8 ≤ (0x8 : Word).toNat % 16) ∧
    ((0xF : Word).toNat / 16 = 0 ∧ 8 ≤ (0xF : Word).toNat % 16) ∧
    ((0x7 : Word).toNat / 16 = 0 ∧ (0x7 : Word).toNat % 16 ≤ 7) ∧
    ((0x0 : Word).toNat / 16 = 0 ∧ (0x0 : Word).toNat % 16 ≤ 7) := by decide

theorem witness_decode_encode : Instr.wellFormed .clear = true ∧ decode 7 = .ok .clear := by decide

theorem witness_StepRunsDecodedCommand :
    (hostAt Engine.reset [.access ⟨true, 0x00C, 2, 1⟩ .stop]).HostNext (.access ⟨true, 0x00C, 2, 1⟩ .stop) [] ∧
    decode 1 = .ok .keysched ∧ decodeTableWord 32 1 = some .keysched :=
  ⟨⟨rfl, rfl, rfl⟩, by decide, by decide⟩

theorem witness_StepCompletesPending :
    ((engineAt (pendingIn .clear Engine.reset)).EngineNext ∧
      (engineAt (pendingIn .clear Engine.reset)).busy = true ∧
      (engineAt (pendingIn .clear Engine.reset)).pending = some .clear) ∧
    ((engineAt Engine.reset).EngineNext ∧ (engineAt Engine.reset).busy = false) :=
  ⟨⟨⟨rfl, rfl⟩, rfl, rfl⟩, ⟨rfl, rfl⟩, rfl⟩

/-- For CmdWriteFollowsAcceptanceRule: busy; illegal; without a mask; accepted. -/
theorem witness_CmdWrite :
    ((hostAt (pendingIn .nop Engine.reset) [wr 0x00C 5]).HostNext (wr 0x00C 5) [] ∧
      (hostAt (pendingIn .nop Engine.reset) [wr 0x00C 5]).busy = true) ∧
    ((hostAt Engine.reset [wr 0x00C 8]).HostNext (wr 0x00C 8) [] ∧ decode 8 = .error .reservedOp) ∧
    ((hostAt Engine.reset [wr 0x00C 2]).HostNext (wr 0x00C 2) [] ∧ decode 2 = .ok .encblk ∧
      (hostAt Engine.reset [wr 0x00C 2]).maskValid = false) ∧
    ((hostAt Engine.reset [wr 0x00C 7]).HostNext (wr 0x00C 7) [] ∧ decode 7 = .ok .clear) :=
  ⟨⟨⟨rfl, rfl, rfl⟩, rfl⟩, ⟨⟨rfl, rfl, rfl⟩, by decide⟩, ⟨⟨rfl, rfl, rfl⟩, by decide, rfl⟩,
    ⟨⟨rfl, rfl, rfl⟩, by decide⟩⟩

theorem witness_IllegalWordIsRejected :
    (hostAt Engine.reset [wr 0x00C 0x10]).HostNext (wr 0x00C 0x10) [] ∧
    (hostAt Engine.reset [wr 0x00C 0x10]).busy = false ∧
    (hostAt (pendingIn .nop Engine.reset) [wr 0x00C 8]).HostNext (wr 0x00C 8) [] ∧
    (hostAt (pendingIn .nop Engine.reset) [wr 0x00C 8]).busy = true ∧
    ((0x10 : Word).toNat / 16 ≠ 0 ∨ 8 ≤ (0x10 : Word).toNat % 16) ∧
    ((0x8 : Word).toNat / 16 ≠ 0 ∨ 8 ≤ (0x8 : Word).toNat % 16) :=
  ⟨⟨rfl, rfl, rfl⟩, rfl, ⟨rfl, rfl, rfl⟩, rfl, by decide, by decide⟩

theorem witness_CommandIssue :
    (hostAt (pendingIn .nop Engine.reset) []).turn = .host ∧
    (hostAt (pendingIn .nop Engine.reset) []).busy = true ∧
    (hostAt Engine.reset []).busy = false ∧ (hostAt Engine.reset []).maskValid = false ∧
    (hostAt { Engine.reset with maskValid := true } []).maskValid = true := by decide

/-- For the completion statements of all eight commands and CompletionNeverFails. -/
theorem witness_AtCompletion (i : Instr) :
    (completing i Engine.reset).AtCompletion i ∧ (engineAt (pendingIn i Engine.reset)).EngineNext ∧
    (engineAt (pendingIn i Engine.reset)).busy = true ∧
    (engineAt (pendingIn i Engine.reset)).pending = some i :=
  ⟨⟨rfl, rfl, rfl⟩, ⟨rfl, rfl⟩, rfl, rfl⟩

/-- For ReadReturnsRegister: every offset an aligned one, idle and busy, at the ends of each range. -/
theorem witness_ReadReturnsRegister (off : BitVec 10) :
    (hostAt Engine.reset [rd off]).HostNext (rd off) [] ∧
    (hostAt (pendingIn .nop Engine.reset) [rd off]).HostNext (rd off) [] ∧
    (hostAt Engine.reset [rd off]).busy = false ∧
    (hostAt (pendingIn .nop Engine.reset) [rd off]).busy = true :=
  ⟨⟨rfl, rfl, rfl⟩, ⟨rfl, rfl, rfl⟩, rfl, rfl⟩

/-- The ranges of the register map at both ends: aligned, and under exactly one clause. -/
theorem witness_offset_ranges :
    (0x03C#10).toNat = 0x020 + 4 * (7 : Fin 8).val ∧ (0x1FC#10).toNat = 0x100 + 4 * (63 : Fin 64).val ∧
    (0x2FC#10).toNat = 0x200 + 4 * (63 : Fin 64).val ∧ (0x020#10).toNat = 0x020 + 4 * (0 : Fin 8).val ∧
    (0x100#10).toNat = 0x100 + 4 * (0 : Fin 64).val ∧ (0x200#10).toNat = 0x200 + 4 * (0 : Fin 64).val := by
  decide

/-- The reserved ranges at both ends, and their neighbours. -/
theorem witness_reserved_ranges :
    ReservedOffset 0x010 ∧ ReservedOffset 0x01C ∧ ReservedOffset 0x040 ∧ ReservedOffset 0x0FC ∧
    ReservedOffset 0x300 ∧ ReservedOffset 0x3FC ∧ ¬ ReservedOffset 0x020 ∧ ¬ ReservedOffset 0x03C ∧
    ¬ ReservedOffset 0x100 ∧ ¬ ReservedOffset 0x2FC ∧ ¬ ReservedOffset 0x00C := by
  unfold ReservedOffset; omega

/-- For WriteActsOnRegister, StatusWriteClearsByOnes, AcknowledgeLowersIrq, BusyWritesAreRejected. -/
theorem witness_writes (off : BitVec 10) (v : Word) :
    (hostAt Engine.reset [wr off v]).HostNext (wr off v) [] ∧
    (hostAt (pendingIn .nop Engine.reset) [wr off v]).HostNext (wr off v) [] ∧
    (hostAt Engine.reset [wr off v]).busy = false ∧
    (hostAt (pendingIn .nop Engine.reset) [wr off v]).busy = true :=
  ⟨⟨rfl, rfl, rfl⟩, ⟨rfl, rfl, rfl⟩, rfl, rfl⟩

theorem witness_ReservedOffsetsAreInert :
    (hostAt Engine.reset [rd 0x3FC]).HostNext (rd 0x3FC) [] ∧
    (hostAt (pendingIn .nop Engine.reset) [wr 0x010 1]).HostNext (wr 0x010 1) [] ∧
    ReservedOffset (0x3FC#10).toNat ∧ ReservedOffset (0x010#10).toNat :=
  ⟨⟨rfl, rfl, rfl⟩, ⟨rfl, rfl, rfl⟩, by unfold ReservedOffset; decide, by unfold ReservedOffset; decide⟩

theorem witness_IllegalAccess (o : OnBusError) :
    (hostAt Engine.reset [.access ⟨false, 0x202, 2, 0⟩ o]).HostNext (.access ⟨false, 0x202, 2, 0⟩ o) [] ∧
    (hostAt Engine.reset [.access ⟨true, 0x200, 1, 0⟩ o]).HostNext (.access ⟨true, 0x200, 1, 0⟩ o) [] ∧
    (0x202#10).toNat % 4 ≠ 0 ∧ (1 : BitVec 2) ≠ 2 :=
  ⟨⟨rfl, rfl, rfl⟩, ⟨rfl, rfl, rfl⟩, by decide, by decide⟩

theorem witness_WindowAddresses : Config.engineBase + 0x400 ≤ Config.engineBase + 0x400 := Nat.le_refl _

theorem witness_XorActsBytewise : (List.replicate 256 (0 : Byte)).length = 256 := List.length_replicate

theorem witness_FirstErrorCode :
    Engine.reset.err = false ∧ ({ Engine.reset with err := true, errcode := 3 } : Engine).err = true := by decide

/-- For the statements about any step that goes on: one that does. -/
theorem witness_step :
    step (hostAt Engine.reset [cmd .keysched]) =
      .next { hostAt Engine.reset [] with
        schedule := [], received := [.writeDone], pending := some .keysched, busy := true } := rfl

theorem witness_ResetEdge :
    (hostAt (pendingIn .clear Engine.reset) [.resetEdge none]).mover = .host ∧
    (hostAt (pendingIn .clear Engine.reset) [.resetEdge none]).inputs = .resetEdge none :: [] := ⟨rfl, rfl⟩

/-- A machine whose power was removed, at the host's event. -/
def unpowered (inputs : List Input) : State := { hostAt Engine.reset inputs with powerLost := true }

/-- For each clause of PowerLossIsStuckUntilReset: the power goes; an access and a WAIT reach a stuck
engine; the engine's event; nothing presented; a reset edge. -/
theorem witness_PowerLoss :
    ((hostAt Engine.reset [.powerLoss]).mover = .host ∧ (hostAt Engine.reset [.powerLoss]).inputs = [.powerLoss]) ∧
    ((unpowered [rd 0x008]).mover = .host ∧ (unpowered [.wait]).powerLost = true) ∧
    ({ unpowered [] with schedule := [.engine] }.mover = .engine ∧ (unpowered []).inputs = []) ∧
    step (unpowered [.resetEdge none]) = .next { hostAt Engine.reset [] with schedule := [] } :=
  ⟨⟨rfl, rfl⟩, ⟨rfl, rfl⟩, ⟨rfl, rfl⟩, rfl⟩

/-- U16: an access to a stuck engine is not answered, and the reset edge behind it is reached. -/
theorem test_stuck_until_reset :
    step (unpowered [rd 0x008, .resetEdge none]) =
      .next ((unpowered [.resetEdge none]).take .host).unanswered ∧
    engineOf (step ((unpowered [.resetEdge none]).take .host).unanswered) = Engine.reset := ⟨rfl, rfl⟩

theorem witness_CompletionWins :
    let s : State := { hostAt (pendingIn .nop Engine.reset) [wr 0x008 2] with schedule := [.host, .engine] }
    s.schedule = .host :: .engine :: [] ∧ s.powerLost = false ∧ s.inputs = wr 0x008 2 :: [] ∧
      s.busy = true ∧ s.pending = some .nop ∧ (2 : Word).getLsbD 1 = true := by decide

/-- For WaitEnds and ChainingStateSavesAndRestores: a pending command, the invariants, and WAIT. -/
theorem witness_WaitEnds (rest : List Input) :
    let s : State := hostAt (pendingIn .clear Engine.reset) (.wait :: rest)
    s.Inv ∧ s.powerLost = false ∧ s.inputs = .wait :: rest ∧ s.received = [] :=
  ⟨fun _ => ⟨⟨fun _ h => (nomatch h), fun _ => rfl⟩, fun _ => rfl, Nat.zero_le 3⟩, rfl, rfl, rfl⟩

theorem witness_StepKeepsInvariants :
    (hostAt Engine.reset [cmd .keysched]).Inv ∧ (hostAt Engine.reset [cmd .keysched]).MaskForBlock ∧
    (hostAt Engine.reset [cmd .keysched]).powerLost = false :=
  ⟨fun _ => ⟨by decide, by decide, by decide⟩, fun _ => by unfold Engine.MaskForBlock; decide, rfl⟩

theorem witness_PendingCommandIsHeld :
    (hostAt (pendingIn .clear Engine.reset) [cmd .nop]).busy = true ∧
    (after (pendingIn .clear Engine.reset) (cmd .nop)).busy = true ∧
    staysPowered (step (hostAt (pendingIn .clear Engine.reset) [cmd .nop])) = true := by decide

/-- For OnlyCommandsWriteMask and WritersOfIvAndData: steps that change MASK, IV and DATA. -/
theorem witness_writers :
    (engineOf (step (engineAt (pendingIn .setmask { Engine.reset with data := ramp })))).mask ≠ Engine.reset.mask ∧
    (after Engine.reset (wr 0x020 1)).iv ≠ Engine.reset.iv ∧
    (after Engine.reset (wr 0x200 1)).data ≠ Engine.reset.data := by decide

/-- For the same statements and the two below: the steps go on, with power. -/
theorem witness_staysPowered :
    staysPowered (step (engineAt (pendingIn .setmask Engine.reset))) = true ∧
    staysPowered (step (hostAt Engine.reset [wr 0x020 1])) = true ∧
    staysPowered (step (hostAt (pendingIn .nop Engine.reset) [rd 0x008])) = true := by decide

/-- For WritersOfFlags and ErrcodeIsFirstError: steps that change BUSY, IE and ERR. -/
theorem witness_flag_writers :
    (after Engine.reset (cmd .nop)).busy = true ∧
    (engineOf (step (engineAt (pendingIn .nop Engine.reset)))).busy = false ∧
    (after Engine.reset ien).ie = true ∧ (after { Engine.reset with err := true } ackerr).err = false ∧
    (after Engine.reset (wr 0x00C 8)).err = true ∧
    (after (pendingIn .nop Engine.reset) (wr 0x2FC 8)).err = true := by decide

/-- For WritersOfFlags: steps that change DONE and MASK_VALID. -/
theorem witness_done_and_maskValid_writers :
    (engineOf (step (engineAt (pendingIn .keysched Engine.reset)))).done = true ∧
    (engineOf (step (engineAt (pendingIn .keysched Engine.reset)))).maskValid = true ∧
    (after { Engine.reset with done := true } (cmd .nop)).done = false ∧
    (after { Engine.reset with done := true } ackdone).done = false ∧
    (engineOf (step (engineAt (pendingIn .clear { Engine.reset with maskValid := true })))).maskValid = false := by
  decide

theorem witness_HazardFreeHost :
    (hostAt (pendingIn .nop Engine.reset) [rd 0x008]).HostNext (rd 0x008) [] ∧
    (hostAt (pendingIn .nop Engine.reset) [rd 0x008]).busy = true ∧
    HostRespects (hostAt (pendingIn .nop Engine.reset) [rd 0x008]) (rd 0x008) :=
  ⟨⟨rfl, rfl, rfl⟩, rfl, fun _ => ⟨fun h => absurd h (by decide), fun _ => by decide⟩⟩

theorem witness_KeyScheduleInjective : ksw ramp32 = ksw ramp32 := rfl

theorem witness_DecblkUndoesEncblk :
    ∃ t, exec .encblk (completing .encblk Engine.reset) = .next t ∧
      (completing .decblk { Engine.reset with data := t.data }).AtCompletion .decblk ∧
      (completing .decblk { Engine.reset with data := t.data }).mask = (completing .encblk Engine.reset).mask :=
  ⟨_, rfl, ⟨rfl, rfl, rfl⟩, rfl⟩

theorem witness_chain_indices :
    0 < [ramp, ramp].length ∧ (0 : Nat) ≠ 1 ∧ ramp32 ≠ Engine.reset.iv := by decide

theorem witness_iv_length : (List.replicate 32 (0 : Byte)).length = 32 := by decide

theorem witness_frame_lengths :
    (List.replicate 288 (0 : Byte)).length = 288 ∧ (288 - 32) % 256 = 0 ∧ (544 - 32) % 256 = 0 ∧
    (289 - 32) % 256 ≠ 0 ∧ 287 < 288 :=
  ⟨List.length_replicate, by omega, by omega, by omega, by omega⟩

/-- For EncryptFailsOnlyAsStated: an IV of another length, and a plaintext that `reject` refuses. -/
theorem witness_EncryptFails :
    (List.replicate 31 (0 : Byte)).length ≠ 32 ∧ (List.replicate 33 (0 : Byte)).length ≠ 32 ∧
    ([] : List Byte).length % 256 = 0 ∧ ([0] : List Byte).length % 256 ≠ 0 := by decide

/-- For the host programs of encrypt, decrypt, restore and the block alone: an idle engine. -/
theorem witness_Idle (program : List Input) :
    ({ State.reset with inputs := program } : State).Idle ∧
    ({ State.reset with inputs := program } : State).inputs = program ∧
    ({ State.reset with inputs := program } : State).received = [] := ⟨⟨rfl, rfl, rfl⟩, rfl, rfl⟩

end Sys2Proof.Tests
end

section
/-! PROOF. The byte views of 00_scope.md R13: bytes of a word, of a list of words, of a block. Each
operation on words is read back one byte at a time, and the two statements about bytes follow. -/

namespace Sys2Proof.Machine

/-! ### The bytes of a word (R13, R53) -/

theorem byteLane_getLsbD (x : Word) (j : Nat) {k : Nat} (hk : k < 8) :
    (byteLane x j).getLsbD k = x.getLsbD (8 * j + k) := by
  simp [byteLane, hk]

/-- Bit `k` of a word of four bytes: the byte `k div 8` holds it. -/
theorem leWord_getLsbD (b0 b1 b2 b3 : Byte) (k : Nat) :
    (leWord b0 b1 b2 b3).getLsbD k =
      if k < 8 then b0.getLsbD k else if k < 16 then b1.getLsbD (k - 8)
      else if k < 24 then b2.getLsbD (k - 16) else b3.getLsbD (k - 24) := by
  simp only [leWord, BitVec.getLsbD_append]
  grind

theorem byteLane_leWord (b0 b1 b2 b3 : Byte) :
    byteLane (leWord b0 b1 b2 b3) 0 = b0 ∧ byteLane (leWord b0 b1 b2 b3) 1 = b1 ∧
    byteLane (leWord b0 b1 b2 b3) 2 = b2 ∧ byteLane (leWord b0 b1 b2 b3) 3 = b3 := by
  refine ⟨?_, ?_, ?_, ?_⟩ <;>
    · refine BitVec.eq_of_getLsbD_eq fun k hk => ?_
      rw [byteLane_getLsbD _ _ hk, leWord_getLsbD]
      grind

/-- A word whose bytes are those of `g`: byte `j` of it is `g j`. -/
theorem byteLane_leWord_of_lt (g : Nat → Byte) {j : Nat} (hj : j < 4) :
    byteLane (leWord (g 0) (g 1) (g 2) (g 3)) j = g j := by
  obtain ⟨h0, h1, h2, h3⟩ := byteLane_leWord (g 0) (g 1) (g 2) (g 3)
  interval_cases j <;> assumption

@[simp] theorem leWord_byteLane (x : Word) :
    leWord (byteLane x 0) (byteLane x 1) (byteLane x 2) (byteLane x 3) = x := by
  refine BitVec.eq_of_getLsbD_eq fun k hk => ?_
  rw [leWord_getLsbD]
  split_ifs
  · rw [byteLane_getLsbD x 0 (by omega), Nat.mul_zero, Nat.zero_add]
  all_goals
    rw [byteLane_getLsbD x _ (by omega)]
    congr 1
    omega

@[simp] theorem byteLane_xor (x y : Word) (j : Nat) :
    byteLane (x ^^^ y) j = byteLane x j ^^^ byteLane y j :=
  BitVec.extractLsb'_xor

/-- Byte `j` of a word as a number (R53). -/
theorem byteLane_eq_ofNat (x : Word) (j : Nat) :
    byteLane x j = BitVec.ofNat 8 (x.toNat / 2 ^ (8 * j)) := by
  rw [← Nat.shiftRight_eq_div_pow]; rfl

/-- `rotb` rotates each byte alone (R79). -/
theorem byteLane_rotb (x : Word) (r : Nat) {j : Nat} (hj : j < 4) :
    byteLane (rotb x r) j = rotl8 (byteLane x j) r :=
  byteLane_leWord_of_lt (fun j => rotl8 (byteLane x j) r) hj

theorem byteLane_wordAt (s : List Byte) (i : Nat) {j : Nat} (hj : j < 4) :
    byteLane (wordAt s i) j = s.getD (4 * i + j) 0 :=
  byteLane_leWord_of_lt (fun j => s.getD (4 * i + j) 0) hj

/-- The rotation of R14 by less than 8 is the rotation of bit vectors. -/
theorem rotl8_eq_rotateLeft (b : Byte) {r : Nat} (hr : r < 8) : rotl8 b r = b.rotateLeft r := by
  rw [BitVec.rotateLeft_def, Nat.mod_eq_of_lt hr, rotl8]
  split
  next h => subst h; simp [BitVec.ushiftRight_eq_zero]
  next => rfl

/-! ### The bytes of a list of words -/

/-- The byte view of a list of words: the one pattern behind the byte views of the model. -/
def wordsBytes (ws : List Word) : List Byte :=
  ws.flatMap fun w => [byteLane w 0, byteLane w 1, byteLane w 2, byteLane w 3]

theorem blockBytes_eq_wordsBytes (b : Block) : blockBytes b = wordsBytes b.toList := rfl

theorem ivFileBytes_eq_wordsBytes (v : IvFile) : ivFileBytes v = wordsBytes v.toList := rfl

theorem wordsBytes_cons (w : Word) (ws : List Word) :
    wordsBytes (w :: ws) =
      byteLane w 0 :: byteLane w 1 :: byteLane w 2 :: byteLane w 3 :: wordsBytes ws := rfl

@[simp] theorem wordsBytes_length (ws : List Word) : (wordsBytes ws).length = 4 * ws.length := by
  induction ws with
  | nil => rfl
  | cons w ws ih => simp only [wordsBytes_cons, List.length_cons, ih]; omega

/-- Byte `k` is byte `k mod 4` of word `k div 4` (R13). -/
theorem wordsBytes_getElem? (ws : List Word) (k : Nat) :
    (wordsBytes ws)[k]? = ws[k / 4]?.map fun w => byteLane w (k % 4) := by
  induction ws generalizing k with
  | nil => simp [wordsBytes]
  | cons w ws ih =>
    match k with
    | 0 | 1 | 2 | 3 => simp [wordsBytes_cons]
    | k + 4 => simp [wordsBytes_cons, ih]

/-! ### The bytes of a block and of the IV file -/

@[simp] theorem blockBytes_length (b : Block) : (blockBytes b).length = 256 := by
  simp [blockBytes_eq_wordsBytes]

theorem blockBytes_getElem? (b : Block) {k : Nat} (hk : k < 256) :
    (blockBytes b)[k]? = some (byteLane (b[k / 4]'(by omega)) (k % 4)) := by
  have hw : k / 4 < 64 := by omega
  simp [blockBytes_eq_wordsBytes, wordsBytes_getElem?, hw]

theorem ivFileBytes_getElem? (v : IvFile) {k : Nat} (hk : k < 32) :
    (ivFileBytes v)[k]? = some (byteLane (v[k / 4]'(by omega)) (k % 4)) := by
  have hw : k / 4 < 8 := by omega
  simp [ivFileBytes_eq_wordsBytes, wordsBytes_getElem?, hw]

/-- Byte `4i + j` of a block is byte `j` of its word `i` (R13). -/
theorem blockBytes_getElem?_lane (b : Block) (i : Fin 64) {j : Nat} (hj : j < 4) :
    (blockBytes b)[4 * i.val + j]? = some (byteLane b[i] j) := by
  have hdiv : (4 * i.val + j) / 4 = i.val := by omega
  have hmod : (4 * i.val + j) % 4 = j := by omega
  rw [blockBytes_getElem? b (by omega)]
  simp [hdiv, hmod]

/-- A block's bytes are a given list when they agree at each of the 256 places. -/
theorem blockBytes_eq_of_getElem? {b : Block} {s : List Byte} (hlen : s.length = 256)
    (h : ∀ k, (hk : k < 256) → s[k]? = some (byteLane (b[k / 4]'(by omega)) (k % 4))) :
    blockBytes b = s := by
  refine List.ext_getElem? fun k => ?_
  by_cases hk : k < 256
  · rw [blockBytes_getElem? b hk, h k hk]
  · rw [List.getElem?_eq_none (by simp; omega), List.getElem?_eq_none (by omega)]

/-! ### O25: XORB in bytes -/

theorem blockBytes_xorb (a b : Block) :
    blockBytes (xorb a b) = List.zipWith (· ^^^ ·) (blockBytes a) (blockBytes b) := by
  refine blockBytes_eq_of_getElem? (by simp) fun k hk => ?_
  rw [List.getElem?_zipWith, blockBytes_getElem? a hk, blockBytes_getElem? b hk]
  simp [xorb]

theorem wordAt_blockBytes (b : Block) (i : Fin 64) : wordAt (blockBytes b) i.val = b[i] := by
  have hlane {j : Nat} (hj : j < 4) : (blockBytes b).getD (4 * i.val + j) 0 = byteLane b[i] j := by
    simp [List.getD_eq_getElem?_getD, blockBytes_getElem?_lane b i hj]
  rw [← leWord_byteLane b[i], wordAt, hlane (by decide : 1 < 4), hlane (by decide : 2 < 4),
    hlane (by decide : 3 < 4), ← hlane (by decide : 0 < 4), Nat.add_zero]

theorem blockOfBytes_blockBytes (b : Block) : blockOfBytes (blockBytes b) = b := by
  ext i hi : 1
  rw [blockOfBytes, tabulate_getElem]
  exact wordAt_blockBytes b ⟨i, hi⟩

theorem blockBytes_blockOfBytes {s : List Byte} (hs : s.length = 256) :
    blockBytes (blockOfBytes s) = s := by
  refine blockBytes_eq_of_getElem? hs fun k hk => ?_
  have hsplit : 4 * (k / 4) + k % 4 = k := Nat.div_add_mod k 4
  have hlane := byteLane_wordAt s (k / 4) (Nat.mod_lt k (by decide : 0 < 4))
  rw [hsplit] at hlane
  simp [blockOfBytes, hlane, hs, hk]

/-- Settles O25, from the byte of a block at each place. -/
theorem xorActsBytewise : Obligations.XorActsBytewise := by
  refine ⟨blockBytes_xorb, fun b i j hj => ?_, blockOfBytes_blockBytes,
    fun s hs => blockBytes_blockOfBytes hs⟩
  rw [blockBytes_getElem?_lane b i hj, byteLane_eq_ofNat]

/-! ### O44: the key schedule in bytes -/

/-- `KS` at output byte `32r + c` (R76). -/
theorem ksBytes_getElem? (s : List Byte) {k : Nat} (hk : k < 256) :
    (ksBytes s)[k]? = some (rotl8 (s.getD (k % 32) 0) (k / 32)) := by
  simp [ksBytes, hk]

/-- Output byte `k` of the word form of the key schedule (R78): word `(k div 4) mod 8` of the IV is
the one that holds IV byte `k mod 32`. -/
theorem byteLane_ksw (iv : IvFile) {k : Nat} (hk : k < 256) :
    byteLane ((ksw iv)[k / 4]'(by omega)) (k % 4) =
      rotl8 ((ivFileBytes iv).getD (k % 32) 0) (k / 32) := by
  have hrow : k / 4 / 8 = k / 32 := Nat.div_div_eq_div_mul k 4 8
  have hword : k / 4 % 8 = k % 32 / 4 := by omega
  have hlane : k % 32 % 4 = k % 4 := Nat.mod_mod_of_dvd k (by decide)
  rw [List.getD_eq_getElem?_getD, ivFileBytes_getElem? iv (by omega)]
  simp [ksw, byteLane_rotb _ _ (Nat.mod_lt k (by decide : 0 < 4)), hrow, hword, hlane]

theorem blockBytes_ksw (iv : IvFile) : blockBytes (ksw iv) = ksBytes (ivFileBytes iv) := by
  refine blockBytes_eq_of_getElem? (by simp [ksBytes]) fun k hk => ?_
  rw [ksBytes_getElem? _ hk, byteLane_ksw iv hk]

/-- Settles O44: the words agree with `KS` byte by byte, and `KS` rotates IV byte `c` by `r`. -/
theorem keyScheduleBytes : Obligations.KeyScheduleBytes := by
  refine ⟨blockBytes_ksw, fun iv r c => ?_⟩
  have hrow : (32 * r.val + c.val) / 32 = r.val := by omega
  have hcol : (32 * r.val + c.val) % 32 = c.val := by omega
  rw [blockBytes_ksw, ksBytes_getElem? _ (by omega), hrow, hcol,
    rotl8_eq_rotateLeft _ r.isLt, List.getD_eq_getElem?_getD, ivFileBytes_getElem? iv c.isLt]
  rfl

end Sys2Proof.Machine
end

section
/-! PROOF. The engine's state (10_state.md): what one event of a powered machine can do to the tuple
of R40, said once. The invariants and the writers of each piece of state are read off from it. -/

namespace Sys2Proof.Machine

/-! ### The events that change the engine -/

/-- The host's event presents a 32-bit write of `v` at offset `off`. -/
def State.HostWrites (s : State) (off : BitVec 10) (v : Word) : Prop :=
  s.mover = .host ∧ ∃ (onError : OnBusError) (rest : List Input),
    s.inputs = .access ⟨true, off, 2, v⟩ onError :: rest

/-- A reset edge is the event (R144). -/
def State.AtResetEdge (s : State) : Prop :=
  s.mover = .host ∧ ∃ presented rest, s.inputs = .resetEdge presented :: rest

/-- The writes on which an error is recorded (R128): to CMD, and to IV or DATA while busy. -/
def State.MayReject (s : State) (off : BitVec 10) : Prop :=
  off = 0x00C ∨ (s.busy = true ∧ ((∃ i : Fin 8, off.toNat = 0x020 + 4 * i.val) ∨
    (∃ i : Fin 64, off.toNat = 0x200 + 4 * i.val)))

/-- What one event can make of the engine of `s`, as far as there is power afterwards. -/
inductive EngineMove (s : State) : Engine → Prop where
  /-- Nothing of R40 changes: reads, WAIT, ignored writes, an event in which nothing happens. -/
  | kept : EngineMove s s.toEngine
  /-- The pending command completes (R103). -/
  | completed (i : Instr) (hm : s.mover = .engine) (hb : s.busy = true) (hi : s.pending = some i) :
      EngineMove s { effectOf i s.toEngine with pending := none, busy := false, done := true }
  /-- A reset edge (R144). -/
  | reset (hr : s.AtResetEdge) : EngineMove s Engine.reset
  /-- A CMD write starts a command (R102). -/
  | accepted (i : Instr) (v : Word) (hw : s.HostWrites 0x00C v) (hd : decode v = .ok i)
      (hb : s.busy = false) (hmask : needsMask i = true → s.maskValid = true) :
      EngineMove s { s.toEngine with pending := some i, busy := true, done := false }
  /-- A write to CMD, IV or DATA is refused and records its error (R52, R73, R129, R130). -/
  | rejected (code : BitVec 4) (off : BitVec 10) (v : Word) (hw : s.HostWrites off v)
      (hoff : s.MayReject off) (hcode : code ∈ [1, 2, 3]) :
      EngineMove s (s.toEngine.cmdError code)
  /-- A CTRL write (R26). -/
  | ctrlWritten (v : Word) (hw : s.HostWrites 0x004 v) :
      EngineMove s { s.toEngine with ie := v.getLsbD 0 }
  /-- A STATUS write acknowledges (R48). -/
  | statusWritten (v : Word) (hw : s.HostWrites 0x008 v) : EngineMove s (s.toEngine.writeStatus v)
  /-- A write to one IV word while idle (R20, R47). -/
  | ivWritten (i : Fin 8) (v : Word) (hw : s.HostWrites (Reg.offset (.iv i)) v)
      (hb : s.busy = false) : EngineMove s { s.toEngine with iv := s.iv.set i v }
  /-- A write to one DATA word while idle (R22, R47). -/
  | dataWritten (i : Fin 64) (v : Word) (hw : s.HostWrites (Reg.offset (.data i)) v)
      (hb : s.busy = false) : EngineMove s { s.toEngine with data := s.data.set i v }

/-- A legal write is determined by its offset and its word (R56). -/
theorem hostWrites_of_hostNext {s : State} {a : Access} {o : OnBusError} {rest : List Input}
    (h : s.HostNext (.access a o) rest) (hl : accessLegal a = true) (hw : a.write = true) :
    s.HostWrites a.addr a.wdata := by
  obtain ⟨hm, -, hi⟩ := h
  obtain ⟨write, addr, size, wdata⟩ := a
  obtain ⟨rfl, -⟩ := (accessLegal_iff _).1 hl
  subst hw
  exact ⟨hm, o, rest, hi⟩

/-- A write to a register other than CMD (R47 to R52). -/
theorem engineMove_writeReg {s : State} {off : BitVec 10} {v : Word} (hw : s.HostWrites off v)
    (h4 : off.toNat % 4 = 0) :
    EngineMove s (s.toEngine.writeReg (regAt off) v) := by
  have hoff (hr : regAt off ≠ .reserved) : off = (regAt off).offset := offset_of_regAt h4 hr
  rcases Engine.writeReg_cases (regAt off) v s.toEngine with
    ⟨hr, he⟩ | ⟨hr, he⟩ | ⟨i, hr, hb, he⟩ | ⟨i, hr, hb, he⟩ | ⟨hr, hb, he⟩ | ⟨-, he⟩ <;> rw [he]
  · rw [hoff (by simp [hr]), hr] at hw
    exact .ctrlWritten v hw
  · rw [hoff (by simp [hr]), hr] at hw
    exact .statusWritten v hw
  · rw [hoff (by simp [hr]), hr] at hw
    exact .ivWritten i v hw hb
  · rw [hoff (by simp [hr]), hr] at hw
    exact .dataWritten i v hw hb
  · refine .rejected 2 off v hw (.inr ⟨hb, ?_⟩) (by decide)
    rcases hr with ⟨i, hr⟩ | ⟨i, hr⟩ <;> have hoff := hoff (by simp [hr]) <;> rw [hr] at hoff
    · exact .inl ⟨i, by rw [hoff, Reg.offset, BitVec.toNat_ofNat]; omega⟩
    · exact .inr ⟨i, by rw [hoff, Reg.offset, BitVec.toNat_ofNat]; omega⟩
  · exact .kept

/-- A decodable word written to CMD (R102). -/
theorem engineMove_issue {s u : State} {i : Instr} {v : Word} (hu : u.toEngine = s.toEngine)
    (hw : s.HostWrites 0x00C v) (hd : decode v = .ok i) :
    EngineMove s (u.issue i (needsMask i)).toEngine := by
  rcases u.issue_cases i (needsMask i) with ⟨-, he⟩ | ⟨-, -, -, he⟩ | ⟨hb, hmask, he⟩ <;>
    rw [he]
  · have := EngineMove.rejected 2 0x00C v hw (.inl rfl) (by decide)
    rwa [← hu] at this
  · have := EngineMove.rejected 3 0x00C v hw (.inl rfl) (by decide)
    rwa [← hu] at this
  · rw [hu] at hb hmask
    have := EngineMove.accepted i v hw hd hb hmask
    rwa [← hu] at this

/-- A step to a state with power moves the engine in one of the ways of `EngineMove`. -/
theorem engineMove_of_step {s t : State} (h : step s = .next t) (hp : t.powerLost = false) :
    EngineMove s t.toEngine := by
  rcases step_cases h with
    ⟨hm, -, hb, i, hi, rfl⟩ | ⟨-, -, rfl⟩ | ⟨-, -, rfl⟩ | ⟨p, rest, hm, hi, rfl⟩ | ⟨rest, -, -, rfl⟩ |
    ⟨inp, rest, -, hl, -, -, rfl⟩ | ⟨rest, -, rfl⟩ | ⟨a, rest, -, -, rfl⟩ | ⟨a, o, rest, -, -, -, rfl⟩ |
    ⟨a, o, rest, hn, hl, hw, -, rfl⟩ | ⟨a, o, rest, i, hn, hl, hw, ha, hd, rfl⟩ |
    ⟨a, o, rest, d, hn, hl, hw, ha, -, rfl⟩
  · exact .completed i hm hb hi
  · rw [State.idle_of_power (by simpa using hp)]
    exact .kept
  · rw [State.idle_of_power (by simpa using hp)]
    exact .kept
  · rw [State.resetEdge_toEngine]
    exact .reset ⟨hm, p, rest, hi⟩
  · simp at hp
  · simp [hl] at hp
  · rw [State.waitStep_toEngine]
    exact .kept
  · exact .kept
  · exact .kept
  · exact engineMove_writeReg (hostWrites_of_hostNext hn hl hw) ((accessLegal_iff a).1 hl).2
  · exact engineMove_issue rfl (ha ▸ hostWrites_of_hostNext hn hl hw) hd
  · refine .rejected _ 0x00C _ (ha ▸ hostWrites_of_hostNext hn hl hw) (.inl rfl) ?_
    split <;> decide

/-- Power after a step was there before it, or a reset edge brought it back (R143). -/
theorem powered_or_reset_of_step {s t : State} (h : step s = .next t) (hp : t.powerLost = false) :
    s.powerLost = false ∨ t.toEngine = Engine.reset := by
  cases hl : s.powerLost with
  | false => exact .inl rfl
  | true =>
    rcases step_without_power hl with ⟨p, rest, -, -, hs⟩ | ⟨u, hs, hu⟩ <;> rw [hs] at h <;> cases h
    · exact .inr (State.resetEdge_toEngine p _)
    · rw [hu] at hp
      cases hp

/-- An invariant of the engine that holds after reset and that every move keeps is kept by every
step, as far as there is a state. -/
theorem step_keeps {P : Engine → Prop} (hreset : P Engine.reset)
    (hmove : ∀ {s : State} {e : Engine}, EngineMove s e → P s.toEngine → P e)
    {s t : State} (hs : s.powerLost = false → P s.toEngine) (h : step s = .next t)
    (hp : t.powerLost = false) : P t.toEngine := by
  rcases powered_or_reset_of_step h hp with hl | hr
  · exact hmove (engineMove_of_step h hp) (hs hl)
  · exact hr ▸ hreset

/-! ### O35, O36, O37: the invariants -/

theorem Engine.inv_reset : Engine.reset.Inv := ⟨by decide, by decide, by decide⟩

theorem Engine.maskForBlock_reset : Engine.reset.MaskForBlock := by
  unfold Engine.MaskForBlock; decide

/-- The invariants speak of BUSY, PENDING, ERR and ERRCODE alone. -/
theorem Engine.Inv.congr {e e' : Engine} (h : e.Inv) (hb : e'.busy = e.busy)
    (hp : e'.pending = e.pending) (he : e'.err = e.err) (hc : e'.errcode = e.errcode) : e'.Inv := by
  obtain ⟨h1, h2, h3⟩ := h
  exact ⟨by rwa [hb, hp], by rwa [he, hc], by rwa [hc]⟩

theorem Engine.Inv.cmdError {e : Engine} (h : e.Inv) {code : BitVec 4} (hcode : code ∈ [1, 2, 3]) :
    (e.cmdError code).Inv := by
  refine ⟨h.busy_iff_pending, fun he => by simp at he, ?_⟩
  rw [Engine.cmdError_errcode]
  split
  · exact h.code_le_three
  · revert code; decide

theorem Engine.Inv.writeStatus {e : Engine} (h : e.Inv) (v : Word) : (e.writeStatus v).Inv := by
  refine ⟨h.busy_iff_pending, fun he => ?_, ?_⟩
  · rw [Engine.writeStatus_err] at he
    rw [Engine.writeStatus_errcode]
    cases hv : v.getLsbD 2 with
    | true => rfl
    | false => exact h.code_zero_of_no_error (by rwa [hv, Bool.not_false, Bool.and_true] at he)
  · rw [Engine.writeStatus_errcode]
    split
    · decide
    · exact h.code_le_three

theorem EngineMove.keeps_inv {s : State} {e : Engine} (m : EngineMove s e) (h : s.toEngine.Inv) :
    e.Inv := by
  cases m with
  | kept => exact h
  | completed i =>
    obtain ⟨-, -, -, herr, hcode, -⟩ := effectOf_frame i s.toEngine
    exact ⟨by simp, by simpa [herr, hcode] using h.code_zero_of_no_error,
      by simpa [hcode] using h.code_le_three⟩
  | reset => exact Engine.inv_reset
  | accepted i => exact ⟨by simp, h.code_zero_of_no_error, h.code_le_three⟩
  | rejected code off v hw hoff hcode => exact h.cmdError hcode
  | statusWritten v => exact h.writeStatus v
  | ctrlWritten | ivWritten | dataWritten => exact h.congr rfl rfl rfl rfl

/-- Settles O35, from what a step can do to the engine. -/
theorem stepKeepsInvariants : Obligations.StepKeepsInvariants :=
  fun _ _ => step_keeps Engine.inv_reset EngineMove.keeps_inv

/-- Settles O36. -/
theorem resetHasInvariants : Obligations.ResetHasInvariants :=
  ⟨fun _ => Engine.inv_reset, fun _ => Engine.maskForBlock_reset⟩

/-- The issue checked MASK_VALID (R102), and only a completion clears it, which ends the command. -/
theorem EngineMove.keeps_maskForBlock {s : State} {e : Engine} (m : EngineMove s e)
    (h : s.toEngine.MaskForBlock) : e.MaskForBlock := by
  cases m with
  | completed => simp [Engine.MaskForBlock]
  | reset => exact Engine.maskForBlock_reset
  | accepted i v hw hd hb hmask =>
    intro hi
    exact hmask ((needsMask_iff i).2 (by simpa using hi))
  | kept | rejected | ctrlWritten | statusWritten | ivWritten | dataWritten => exact h

/-- Settles O37, from what a step can do to the engine. -/
theorem stepKeepsMaskForBlock : Obligations.StepKeepsMaskForBlock :=
  fun _ _ => step_keeps Engine.maskForBlock_reset EngineMove.keeps_maskForBlock

/-! ### O39, O40: the writers of the register files -/

/-- The commands whose pseudocode writes MASK, IV, DATA (R104). -/
theorem effectOf_files (i : Instr) (e : Engine) :
    ((effectOf i e).mask ≠ e.mask → i ∈ [.keysched, .encblk, .decblk, .setmask, .clear]) ∧
    ((effectOf i e).iv ≠ e.iv → i = .clear) ∧
    ((effectOf i e).data ≠ e.data → i ∈ [.encblk, .decblk, .perm, .unperm, .clear]) := by
  cases i <;> simp [effectOf, nopEffect]

section Writers
variable {s : State} {e : Engine}

theorem EngineMove.mask_writer (m : EngineMove s e) (hne : e.mask ≠ s.mask) :
    (s.mover = .engine ∧ s.busy = true ∧
      ∃ i, s.pending = some i ∧ i ∈ [.keysched, .encblk, .decblk, .setmask, .clear]) ∨
    s.AtResetEdge := by
  cases m with
  | completed i hm hb hi => exact .inl ⟨hm, hb, i, hi, (effectOf_files i _).1 hne⟩
  | reset hr => exact .inr hr
  | kept | accepted | rejected | ctrlWritten | statusWritten | ivWritten | dataWritten =>
    exact absurd rfl hne

theorem EngineMove.iv_writer (m : EngineMove s e) (hne : e.iv ≠ s.iv) :
    (s.mover = .engine ∧ s.busy = true ∧ s.pending = some .clear) ∨ s.AtResetEdge ∨
    (s.busy = false ∧ ∃ (i : Fin 8) (v : Word),
      s.HostWrites (Reg.offset (.iv i)) v ∧ e.iv = s.iv.set i v) := by
  cases m with
  | completed i hm hb hi =>
    obtain rfl := (effectOf_files i _).2.1 hne
    exact .inl ⟨hm, hb, hi⟩
  | reset hr => exact .inr (.inl hr)
  | ivWritten i v hw hb => exact .inr (.inr ⟨hb, i, v, hw, rfl⟩)
  | kept | accepted | rejected | ctrlWritten | statusWritten | dataWritten => exact absurd rfl hne

theorem EngineMove.data_writer (m : EngineMove s e) (hne : e.data ≠ s.data) :
    (s.mover = .engine ∧ s.busy = true ∧
      ∃ i, s.pending = some i ∧ i ∈ [.encblk, .decblk, .perm, .unperm, .clear]) ∨ s.AtResetEdge ∨
    (s.busy = false ∧ ∃ (i : Fin 64) (v : Word),
      s.HostWrites (Reg.offset (.data i)) v ∧ e.data = s.data.set i v) := by
  cases m with
  | completed i hm hb hi => exact .inl ⟨hm, hb, i, hi, (effectOf_files i _).2.2 hne⟩
  | reset hr => exact .inr (.inl hr)
  | dataWritten i v hw hb => exact .inr (.inr ⟨hb, i, v, hw, rfl⟩)
  | kept | accepted | rejected | ctrlWritten | statusWritten | ivWritten => exact absurd rfl hne

end Writers

/-- Settles O39: of the moves only a completion and a reset touch MASK. -/
theorem onlyCommandsWriteMask : Obligations.OnlyCommandsWriteMask :=
  fun _ _ h hp hne => (engineMove_of_step h hp).mask_writer hne

/-- Settles O40: of the moves a completion, a reset and the write of one word touch IV or DATA. -/
theorem writersOfIvAndData : Obligations.WritersOfIvAndData := by
  intro s t h hp
  have move := engineMove_of_step h hp
  refine ⟨fun hne => ?_, fun hne => ?_⟩
  · rcases move.iv_writer hne with hc | hr | ⟨hb, i, v, ⟨hm, o, rest, hi⟩, he⟩
    · exact .inl hc
    · exact .inr (.inl hr)
    · exact .inr (.inr ⟨hm, hb, i, v, o, rest, hi, he⟩)
  · rcases move.data_writer hne with hc | hr | ⟨hb, i, v, ⟨hm, o, rest, hi⟩, he⟩
    · exact .inl hc
    · exact .inr (.inl hr)
    · exact .inr (.inr ⟨hm, hb, i, v, o, rest, hi, he⟩)

/-! ### O41, O42: the writers of the flags and of ERRCODE -/

/-- The commands whose pseudocode writes MASK_VALID (R32, R104). -/
theorem effectOf_maskValid (i : Instr) (e : Engine) :
    (e.maskValid = false → (effectOf i e).maskValid = true → i = .keysched ∨ i = .setmask) ∧
    (e.maskValid = true → (effectOf i e).maskValid = false → i = .clear) := by
  cases i <;> simp +contextual [effectOf, nopEffect]

section Flags
variable {s : State} {e : Engine}

theorem EngineMove.busy_rise (m : EngineMove s e) (hs : s.busy = false) (he : e.busy = true) :
    ∃ (v : Word) (i : Instr), s.HostWrites 0x00C v ∧ decode v = .ok i ∧
      e.pending = some i ∧ e.done = false := by
  cases m with
  | accepted i v hw hd => exact ⟨v, i, hw, hd, rfl, rfl⟩
  | completed | reset => cases he
  | kept | rejected | ctrlWritten | statusWritten | ivWritten | dataWritten =>
    exact absurd (hs.symm.trans he) (by decide)

theorem EngineMove.busy_fall (m : EngineMove s e) (hs : s.busy = true) (he : e.busy = false) :
    (s.mover = .engine ∧ e.done = true) ∨ s.AtResetEdge := by
  cases m with
  | completed i hm => exact .inl ⟨hm, rfl⟩
  | reset hr => exact .inr hr
  | accepted => cases he
  | kept | rejected | ctrlWritten | statusWritten | ivWritten | dataWritten =>
    exact absurd (hs.symm.trans he) (by decide)

theorem EngineMove.done_rise (m : EngineMove s e) (hs : s.done = false) (he : e.done = true) :
    s.mover = .engine ∧ s.busy = true ∧ e.busy = false := by
  cases m with
  | completed i hm hb => exact ⟨hm, hb, rfl⟩
  | reset | accepted => cases he
  | statusWritten => simp [hs] at he
  | kept | rejected | ctrlWritten | ivWritten | dataWritten =>
    exact absurd (hs.symm.trans he) (by decide)

theorem EngineMove.done_fall (m : EngineMove s e) (hs : s.done = true) (he : e.done = false) :
    s.AtResetEdge ∨ (s.mover = .host ∧ s.busy = false ∧ e.busy = true) ∨
      ∃ v : Word, s.HostWrites 0x008 v ∧ v.getLsbD 1 = true := by
  cases m with
  | completed => cases he
  | reset hr => exact .inl hr
  | accepted i v hw hd hb => exact .inr (.inl ⟨hw.1, hb, rfl⟩)
  | statusWritten v hw =>
    exact .inr (.inr ⟨v, hw, by
      rwa [Engine.writeStatus_done, hs, Bool.true_and, Bool.not_eq_false'] at he⟩)
  | kept | rejected | ctrlWritten | ivWritten | dataWritten =>
    exact absurd (hs.symm.trans he) (by decide)

theorem EngineMove.maskValid_rise (m : EngineMove s e) (hs : s.maskValid = false)
    (he : e.maskValid = true) :
    s.mover = .engine ∧ s.busy = true ∧ (s.pending = some .keysched ∨ s.pending = some .setmask) := by
  cases m with
  | completed i hm hb hi =>
    refine ⟨hm, hb, ?_⟩
    rcases (effectOf_maskValid i _).1 hs he with rfl | rfl
    · exact .inl hi
    · exact .inr hi
  | reset => cases he
  | kept | accepted | rejected | ctrlWritten | statusWritten | ivWritten | dataWritten =>
    exact absurd (hs.symm.trans he) (by decide)

theorem EngineMove.maskValid_fall (m : EngineMove s e) (hs : s.maskValid = true)
    (he : e.maskValid = false) :
    (s.mover = .engine ∧ s.busy = true ∧ s.pending = some .clear) ∨ s.AtResetEdge := by
  cases m with
  | completed i hm hb hi =>
    obtain rfl := (effectOf_maskValid i _).2 hs he
    exact .inl ⟨hm, hb, hi⟩
  | reset hr => exact .inr hr
  | kept | accepted | rejected | ctrlWritten | statusWritten | ivWritten | dataWritten =>
    exact absurd (hs.symm.trans he) (by decide)

theorem EngineMove.ie_writer (m : EngineMove s e) (hne : e.ie ≠ s.ie) :
    s.AtResetEdge ∨ ∃ v : Word, s.HostWrites 0x004 v ∧ e.ie = v.getLsbD 0 := by
  cases m with
  | completed i => exact absurd (effectOf_frame i _).1 hne
  | reset hr => exact .inl hr
  | ctrlWritten v hw => exact .inr ⟨v, hw, rfl⟩
  | kept | accepted | rejected | statusWritten | ivWritten | dataWritten => exact absurd rfl hne

theorem EngineMove.err_rise (m : EngineMove s e) (hs : s.err = false) (he : e.err = true) :
    ∃ (off : BitVec 10) (v : Word), s.HostWrites off v ∧ s.MayReject off ∧
      e.errcode ∈ [1, 2, 3] := by
  cases m with
  | completed i =>
    obtain ⟨-, -, -, herr, -, -⟩ := effectOf_frame i s.toEngine
    exact absurd (hs.symm.trans (herr.symm.trans he)) (by decide)
  | reset => cases he
  | rejected code off v hw hoff hcode =>
    exact ⟨off, v, hw, hoff, by simpa [hs] using hcode⟩
  | statusWritten => simp [hs] at he
  | kept | accepted | ctrlWritten | ivWritten | dataWritten =>
    exact absurd (hs.symm.trans he) (by decide)

theorem EngineMove.err_fall (m : EngineMove s e) (hs : s.err = true) (he : e.err = false) :
    s.AtResetEdge ∨ ∃ v : Word, s.HostWrites 0x008 v ∧ v.getLsbD 2 = true := by
  cases m with
  | completed i =>
    obtain ⟨-, -, -, herr, -, -⟩ := effectOf_frame i s.toEngine
    exact absurd (hs.symm.trans (herr.symm.trans he)) (by decide)
  | reset hr => exact .inl hr
  | rejected => cases he
  | statusWritten v hw =>
    exact .inr ⟨v, hw, by rwa [Engine.writeStatus_err, hs, Bool.true_and, Bool.not_eq_false'] at he⟩
  | kept | accepted | ctrlWritten | ivWritten | dataWritten =>
    exact absurd (hs.symm.trans he) (by decide)

/-- The first code since ERR was cleared is kept (R33, R129). -/
theorem EngineMove.errcode_kept (m : EngineMove s e) (hs : s.err = true) (he : e.err = true) :
    e.errcode = s.errcode := by
  cases m with
  | completed i =>
    obtain ⟨-, -, -, -, hcode, -⟩ := effectOf_frame i s.toEngine
    exact hcode
  | reset => cases he
  | rejected => simp [hs]
  | statusWritten v =>
    rw [Engine.writeStatus_err, hs, Bool.true_and, Bool.not_eq_true'] at he
    rw [Engine.writeStatus_errcode, he]
    rfl
  | kept | accepted | ctrlWritten | ivWritten | dataWritten => rfl

end Flags

/-- Settles O41, one lemma for each direction of each flag. -/
theorem writersOfFlags : Obligations.WritersOfFlags := by
  intro s t h hp
  have m := engineMove_of_step h hp
  refine ⟨fun hs ht => ?_, m.busy_fall, m.done_rise, fun hs ht => ?_, m.maskValid_rise,
    m.maskValid_fall, fun hne => ?_, fun hs ht => ?_, fun hs ht => ?_⟩
  · obtain ⟨v, i, ⟨hm, o, rest, hi⟩, hd, hpend, hdone⟩ := m.busy_rise hs ht
    exact ⟨hm, v, i, o, rest, hi, hd, hpend, hdone⟩
  · rcases m.done_fall hs ht with ⟨hm, hr⟩ | ⟨hm, hb⟩ | ⟨v, ⟨hm, o, rest, hi⟩, hv⟩
    · exact ⟨hm, .inl hr⟩
    · exact ⟨hm, .inr (.inl hb)⟩
    · exact ⟨hm, .inr (.inr ⟨v, o, rest, hi, hv⟩)⟩
  · rcases m.ie_writer hne with ⟨hm, hr⟩ | ⟨v, ⟨hm, o, rest, hi⟩, hv⟩
    · exact ⟨hm, .inl hr⟩
    · exact ⟨hm, .inr ⟨v, o, rest, hi, hv⟩⟩
  · obtain ⟨off, v, ⟨hm, o, rest, hi⟩, hoff, -⟩ := m.err_rise hs ht
    exact ⟨hm, off, v, o, rest, hi, hoff⟩
  · rcases m.err_fall hs ht with ⟨hm, hr⟩ | ⟨v, ⟨hm, o, rest, hi⟩, hv⟩
    · exact ⟨hm, .inl hr⟩
    · exact ⟨hm, .inr ⟨v, o, rest, hi, hv⟩⟩

/-- Settles O42; that there is no code without an error is the invariant of O35. -/
theorem errcodeIsFirstError : Obligations.ErrcodeIsFirstError := by
  intro s t hs h hp
  have m := engineMove_of_step h hp
  refine ⟨m.errcode_kept, fun hse hte => ?_, (stepKeepsInvariants s t hs h hp).code_zero_of_no_error⟩
  obtain ⟨-, -, -, -, hcode⟩ := m.err_rise hse hte
  exact hcode

/-! ### O5, O27, O30, O31: single steps and the reset values -/

/-- A CMD write of a word that decodes (R102). -/
theorem step_of_command {s : State} {rest : List Input} {v : Word} {o : OnBusError} {i : Instr}
    (h : s.HostNext (.access ⟨true, 0x00C, 2, v⟩ o) rest) (hd : decode v = .ok i) :
    step s = exec i ((s.afterInput rest).answer .writeDone) := by
  rw [step_of_cmdWrite h ((accessLegal_word true 0x00C v).2 (by decide)) rfl regAt_cmd, issueWord, hd]

theorem hostNext_withFetchWord (s : State) (w : Nat) :
    (s.withFetchWord 32 w).HostNext (cmdWrite (tableWord 32 w)) s.inputs := ⟨rfl, rfl, rfl⟩

theorem decodeTableWord_eq_some {w : Nat} {i : Instr} (h : decodeTableWord 32 w = some i) :
    decode (tableWord 32 w) = .ok i := by
  rw [decodeTableWord] at h
  cases hd : decode (tableWord 32 w) with
  | error d => rw [hd] at h; cases h
  | ok j => rw [hd] at h; cases h; rfl

/-- Settles O5; `withFetchWord` is a state of the first clause. -/
theorem stepRunsDecodedCommand : Obligations.StepRunsDecodedCommand :=
  ⟨fun _ _ _ _ _ h hd => step_of_command h hd,
    fun s w _ h => step_of_command (hostNext_withFetchWord s w) (decodeTableWord_eq_some h)⟩

/-- Settles O27. -/
theorem irqFollowsState : Obligations.IrqFollowsState := by
  intro e
  rw [Engine.irq, Bool.and_eq_true, Bool.or_eq_true]

/-- Settles O30: the register files word by word, the other fields by evaluation. -/
theorem resetValues : Obligations.ResetValues :=
  ⟨fun _ => Vector.getElem_replicate _, fun _ => Vector.getElem_replicate _,
    fun _ => Vector.getElem_replicate _, rfl, rfl, rfl, rfl, rfl, rfl, rfl, rfl, rfl⟩

/-- A reset edge (R144), with power or without. -/
theorem step_of_resetEdge {s : State} {p : Option Access} {rest : List Input}
    (hm : s.mover = .host) (hi : s.inputs = .resetEdge p :: rest) :
    step s = .next ((s.afterInput rest).resetEdge p) := by
  simp [step, hm, hostStep, hi, present, State.afterInput]

/-- Settles O31, with and without a transaction presented. -/
theorem resetEdgeResetsEngine : Obligations.ResetEdgeResetsEngine := by
  intro s p rest hm hi
  rw [step_of_resetEdge hm hi]
  cases p with
  | none => rfl
  | some a => rfl

end Sys2Proof.Machine
end

section
/-! PROOF. The register interface (20_memory.md): what each kind of transaction answers and what it
makes of the engine, said once per kind, and the statements about the window read off from it. -/

namespace Sys2Proof.Machine

/-! ### O4: the well-formedness checks -/

/-- The decoder is the opcode map behind the check of MBZ (R72). -/
theorem decode_eq_ok_iff (v : Word) (i : Instr) :
    decode v = .ok i ↔ mbzField v = 0 ∧ instrOfOp (opField v) = some i := by
  unfold decode
  split
  next hz => exact ⟨nofun, fun ⟨hz', _⟩ => absurd hz' hz⟩
  next hz => cases instrOfOp (opField v) <;> simp [not_not.1 hz]

/-- The opcode map is defined on 0x0 to 0x7 (R71). -/
theorem instrOfOp_defined_iff (op : BitVec 4) : (∃ i, instrOfOp op = some i) ↔ op.toNat ≤ 7 := by
  rw [← Option.isSome_iff_exists]
  revert op
  decide

theorem CmdWord.wellFormed_iff (v : Word) :
    CmdWord.wellFormed v = true ↔ v.toNat / 16 = 0 ∧ v.toNat % 16 ≤ 7 := by
  simp only [CmdWord.wellFormed, CmdWord.mbzZero, CmdWord.opDefined, Bool.and_eq_true, beq_iff_eq,
    decide_eq_true_eq]

theorem Access.wellFormed_iff (a : Access) :
    a.wellFormed = true ↔ a.size = 2 ∧ a.addr.toNat % 4 = 0 := by
  simp only [Access.wellFormed, Access.sizeOk, Access.aligned, Bool.and_eq_true, beq_iff_eq,
    ← BitVec.toNat_inj (x := a.size)]
  rfl

/-- Settles O4: both checks and both tests are the same two conditions on the numbers. -/
theorem checksAgreeWithMachine : Obligations.ChecksAgreeWithMachine := by
  refine ⟨fun v => ?_, fun a => ?_⟩
  · simp only [decode_eq_ok_iff, exists_and_left, instrOfOp_defined_iff, mbzField_eq_zero_iff,
      opField_toNat, CmdWord.wellFormed_iff]
  · rw [Bool.eq_iff_iff, Access.wellFormed_iff, accessLegal_iff]

/-! ### Reads (R46, R51) -/

/-- The index of the next free value after a read of `r` (log 3). -/
def State.drawsAfterRead (r : Reg) (s : State) : Nat :=
  if s.readIsFree r then s.draws + 1 else s.draws

theorem State.readIsFree_iff (r : Reg) (s : State) :
    s.readIsFree r = true ↔ s.busy = true ∧ r.inFile = true := by
  rw [State.readIsFree, Bool.and_eq_true]

/-- A register outside the files, or any register of an idle engine, reads as it is (R46). -/
theorem State.read_known {s : State} {r : Reg} (h : s.busy = false ∨ r.inFile = false) :
    s.readValue r = s.toEngine.readReg r ∧ s.drawsAfterRead r = s.draws := by
  have hk : s.readIsFree r = false := by
    rw [State.readIsFree, Bool.and_eq_false_iff]
    exact h
  simp [State.readValue, State.drawsAfterRead, hk]

/-- A word of the files reads as the next free value while busy (R51). -/
theorem State.read_free {s : State} {r : Reg} (hb : s.busy = true) (hr : r.inFile = true) :
    s.readValue r = Config.busyRead s.draws ∧ s.drawsAfterRead r = s.draws + 1 := by
  have hf : s.readIsFree r = true := (s.readIsFree_iff r).2 ⟨hb, hr⟩
  simp [State.readValue, State.drawsAfterRead, hf]

/-- The step of an aligned 32-bit read. -/
theorem step_of_alignedRead {s : State} {a : Access} {o : OnBusError} {rest : List Input}
    (h : s.HostNext (.access a o) rest) (h2 : a.size = 2) (h4 : a.addr.toNat % 4 = 0)
    (hw : a.write = false) :
    step s = .next { s.afterInput rest with
      received := .value (s.readValue (regAt a.addr)) :: s.received
      draws := s.drawsAfterRead (regAt a.addr) } :=
  step_of_read h ((accessLegal_iff a).2 ⟨h2, h4⟩) hw

/-- A flag at its place is its number, shifted (R26, R28). -/
theorem bitAt_eq_ofNat (b : Bool) (k : Nat) : bitAt b k = BitVec.ofNat 32 b.toNat <<< k := by
  cases b <;> rfl

/-- A field or-ed in above the bits of `n` is added. -/
theorem ofNat_or_shiftLeft {n k : Nat} (m : Nat) (hn : n < 2 ^ k) :
    BitVec.ofNat 32 n ||| BitVec.ofNat 32 m <<< k = BitVec.ofNat 32 (n + 2 ^ k * m) := by
  have hshift : BitVec.ofNat 32 m <<< k = BitVec.ofNat 32 (2 ^ k * m) :=
    BitVec.eq_of_toNat_eq (by simp [Nat.shiftLeft_eq, Nat.mul_comm])
  rw [hshift, ← BitVec.ofNat_or, Nat.or_comm, ← Nat.two_pow_add_eq_or_of_lt hn, Nat.add_comm]

/-- STATUS as a number: its flags and its code at their places (R28). -/
theorem Engine.statusWord_eq_ofNat (e : Engine) :
    e.statusWord = BitVec.ofNat 32 (e.busy.toNat + 2 * e.done.toNat + 4 * e.err.toNat +
      8 * e.maskValid.toNat + 256 * e.errcode.toNat) := by
  have hbusy := e.busy.toNat_le
  have hdone := e.done.toNat_le
  have herr := e.err.toNat_le
  have hmask := e.maskValid.toNat_le
  rw [Engine.statusWord, ← BitVec.ofNat_toNat 32 e.errcode]
  simp only [bitAt_eq_ofNat, BitVec.shiftLeft_zero]
  rw [ofNat_or_shiftLeft _ (by omega), ofNat_or_shiftLeft _ (by omega),
    ofNat_or_shiftLeft _ (by omega), ofNat_or_shiftLeft _ (by omega)]
  rfl

/-- CTRL as a number (R26). -/
theorem Engine.ctrlWord_eq_ofNat (e : Engine) : e.ctrlWord = BitVec.ofNat 32 e.ie.toNat := by
  cases h : e.ie <;> simp [Engine.ctrlWord, bitAt, h]

/-- Settles O18: each clause names the register at its offset, and says which kind of read it is. -/
theorem readReturnsRegister : Obligations.ReadReturnsRegister := by
  intro s rest off wdata o h h4
  have known {r : Reg} (hr : regAt off = r) (hk : s.busy = false ∨ r.inFile = false) :
      s.readValue (regAt off) = s.toEngine.readReg r ∧ s.drawsAfterRead (regAt off) = s.draws := by
    rw [hr]; exact State.read_known hk
  have free {r : Reg} (hr : regAt off = r) (hb : s.busy = true) (hf : r.inFile = true) :
      s.readValue (regAt off) = Config.busyRead s.draws ∧
        s.drawsAfterRead (regAt off) = s.draws + 1 := by
    rw [hr]; exact State.read_free hb hf
  refine ⟨s.readValue (regAt off), s.drawsAfterRead (regAt off), step_of_alignedRead h rfl h4 rfl,
    fun ho => ?id, fun ho => ?ctrl, fun ho => ?status, fun ho => ?cmd, fun ho => ?reserved,
    fun hb => ⟨fun i ho => ?iv, fun i ho => ?mask, fun i ho => ?data⟩, fun hb ho => ?busy⟩
  case id => exact known (r := .id) (ho ▸ regAt_id) (.inr rfl)
  case ctrl =>
    rw [← Engine.ctrlWord_eq_ofNat]
    exact known (r := .ctrl) (ho ▸ regAt_ctrl) (.inr rfl)
  case status =>
    rw [← Engine.statusWord_eq_ofNat]
    exact known (r := .status) (ho ▸ regAt_status) (.inr rfl)
  case cmd => exact known (r := .cmd) (ho ▸ regAt_cmd) (.inr rfl)
  case reserved => exact known (regAt_reserved ho) (.inr rfl)
  case iv => exact known (regAt_iv i ho) (.inl hb)
  case mask => exact known (regAt_mask i ho) (.inl hb)
  case data => exact known (regAt_data i ho) (.inl hb)
  case busy =>
    rcases ho with ⟨i, ho⟩ | ⟨i, ho⟩ | ⟨i, ho⟩
    · exact free (regAt_iv i ho) hb rfl
    · exact free (regAt_mask i ho) hb rfl
    · exact free (regAt_data i ho) hb rfl

/-! ### Writes (R47 to R52) -/

/-- The step of an aligned 32-bit write to any register but CMD. -/
theorem step_of_alignedWrite {s : State} {a : Access} {o : OnBusError} {rest : List Input}
    (h : s.HostNext (.access a o) rest) (h2 : a.size = 2) (h4 : a.addr.toNat % 4 = 0)
    (hw : a.write = true) (hc : regAt a.addr ≠ .cmd) :
    step s = .next { s.afterInput rest with
      toEngine := s.toEngine.writeReg (regAt a.addr) a.wdata
      received := .writeDone :: s.received } :=
  step_of_write h ((accessLegal_iff a).2 ⟨h2, h4⟩) hw hc

/-- A write to STATUS clears DONE by bit 1, ERR and ERRCODE by bit 2 (R48). -/
theorem Engine.writeStatus_eq (v : Word) (e : Engine) :
    e.writeStatus v = { e with
      done := if v.getLsbD 1 = true then false else e.done
      err := if v.getLsbD 2 = true then false else e.err
      errcode := if v.getLsbD 2 = true then 0 else e.errcode } := by
  unfold Engine.writeStatus
  cases v.getLsbD 1 <;> cases v.getLsbD 2 <;> simp

/-- A word of IV or DATA is not written while busy, and code 2 is recorded (R52). -/
theorem Engine.writeReg_busy {r : Reg} {e : Engine} (hr : (∃ i, r = .iv i) ∨ (∃ i, r = .data i))
    (hb : e.busy = true) (v : Word) : e.writeReg r v = e.cmdError 2 := by
  rcases hr with ⟨i, rfl⟩ | ⟨i, rfl⟩ <;> simp [Engine.writeReg, hb, codeBusy]

/-- The offsets of the IV and DATA words reach those words (R45). -/
theorem regAt_ivOrData {off : BitVec 10}
    (h : (∃ i : Fin 8, off.toNat = 0x020 + 4 * i.val) ∨
      (∃ i : Fin 64, off.toNat = 0x200 + 4 * i.val)) :
    (∃ i, regAt off = .iv i) ∨ (∃ i, regAt off = .data i) := by
  rcases h with ⟨i, hi⟩ | ⟨i, hi⟩
  · exact .inl ⟨i, regAt_iv i hi⟩
  · exact .inr ⟨i, regAt_data i hi⟩

/-- Settles O19: each clause names the register at its offset. -/
theorem writeActsOnRegister : Obligations.WriteActsOnRegister := by
  intro s rest off v o h h4 hoff
  have hc : regAt off ≠ .cmd := fun hr => hoff ((regAt_cmd_iff h4).1 hr)
  refine ⟨s.toEngine.writeReg (regAt off) v, step_of_alignedWrite h rfl h4 rfl hc,
    fun ho => ?ctrl, fun ho => ?status, fun i ho hb => ?iv, fun i ho hb => ?data,
    fun hb ho => Engine.writeReg_busy (regAt_ivOrData ho) hb v, fun ho => ?ignored⟩
  case ctrl => rw [show regAt off = .ctrl from ho ▸ regAt_ctrl]; rfl
  case status =>
    rw [show regAt off = .status from ho ▸ regAt_status]
    exact s.toEngine.writeStatus_eq v
  case iv => simp [regAt_iv i ho, Engine.writeReg, hb]
  case data => simp [regAt_data i ho, Engine.writeReg, hb]
  case ignored =>
    rcases ho with ho | ⟨i, ho⟩ | ho
    · rw [show regAt off = .id from ho ▸ regAt_id]; rfl
    · rw [regAt_mask i ho]; rfl
    · rw [regAt_reserved ho]; rfl

/-- The step of a STATUS write (R48). -/
theorem step_of_statusWrite {s : State} {v : Word} {o : OnBusError} {rest : List Input}
    (h : s.HostNext (.access ⟨true, 0x008, 2, v⟩ o) rest) :
    step s = .next { s.afterInput rest with
      toEngine := s.toEngine.writeStatus v, received := .writeDone :: s.received } := by
  have hr : regAt 0x008 = .status := regAt_status
  have h4 : (0x008 : BitVec 10).toNat % 4 = 0 := by decide
  have hstep := step_of_alignedWrite h rfl h4 rfl (by simp)
  rwa [hr] at hstep

/-- Settles O20: the step of a STATUS write, with the acknowledgement written out field by field. -/
theorem statusWriteClearsByOnes : Obligations.StatusWriteClearsByOnes := by
  intro s rest v o h
  rw [step_of_statusWrite h, Engine.writeStatus_eq]
  rfl

/-- Settles O28: bits 1 and 2 of the word 6 clear both sources of the interrupt. -/
theorem acknowledgeLowersIrq : Obligations.AcknowledgeLowersIrq := by
  intro s rest o h
  exact ⟨_, step_of_statusWrite h, by simp [Engine.irq], rfl, rfl, rfl⟩

/-- Settles O21: a reserved offset is outside the files, so busy or not it reads as it is. -/
theorem reservedOffsetsAreInert : Obligations.ReservedOffsetsAreInert := by
  intro s rest a o h h2 hres
  have hr : regAt a.addr = .reserved := regAt_reserved hres
  refine ⟨fun hw => ?_, fun hw => ?_⟩
  · obtain ⟨hv, hd⟩ := State.read_known (s := s) (r := .reserved) (.inr rfl)
    rw [step_of_alignedRead h h2 hres.1 hw, hr, hv, hd]
    rfl
  · rw [step_of_alignedWrite h h2 hres.1 hw (by simp [hr]), hr]
    rfl

/-- Every word written to CMD while busy is rejected with code 2, legal or not (R52, R102). -/
theorem issueWord_busy {s : State} (v : Word) (ht : s.turn = .host) (hb : s.busy = true) :
    issueWord v s = .next (s.withError 2) := by
  rcases issueWord_cases v s with ⟨i, -, he⟩ | ⟨d, -, he⟩ <;> rw [he]
  · simp [exec_eq_lifecycle, State.lifecycle, ht, State.issue, hb, State.cmdError_eq_withError,
      codeBusy]
  · rw [if_pos hb]

/-- Settles O22: the write to CMD is rejected by the issue, the others by the register write. -/
theorem busyWritesAreRejected : Obligations.BusyWritesAreRejected := by
  intro s rest a o h hb hw h2 ha
  rcases ha with hcmd | hfile
  · have hr : regAt a.addr = .cmd := hcmd ▸ regAt_cmd
    have hl : accessLegal a = true := (accessLegal_iff a).2 ⟨h2, by rw [hcmd]; rfl⟩
    rw [step_of_cmdWrite h hl hw hr]
    exact issueWord_busy _ rfl hb
  · have hr := regAt_ivOrData hfile
    have hc : regAt a.addr ≠ .cmd := by
      rcases hr with ⟨i, hr⟩ | ⟨i, hr⟩ <;> simp [hr]
    have h4 : a.addr.toNat % 4 = 0 := by
      rcases hfile with ⟨i, hi⟩ | ⟨i, hi⟩ <;> omega
    rw [step_of_alignedWrite h h2 h4 hw hc, Engine.writeReg_busy hr hb]
    rfl

/-! ### O23, O24: the other accesses, and the physical window -/

/-- Settles O23, from the one step of an access that R56 rejects. -/
theorem illegalAccessGetsBusError : Obligations.IllegalAccessGetsBusError := by
  intro s rest a o h hbad
  have hl : accessLegal a = false := by
    rw [Bool.eq_false_iff, Ne, accessLegal_iff]
    exact fun ⟨h2, h4⟩ => hbad.elim (· h2) (· h4)
  rw [step_of_illegal h hl]
  refine ⟨?_, ?_, ?_⟩
  · rintro rfl; rfl
  · rintro rfl hw; rw [busErrorResponse, hw]; rfl
  · rintro rfl hw; rw [busErrorResponse, hw]; rfl

/-- Settles O24: the base cancels, and a 10-bit offset is below the window's size. -/
theorem windowAddressesMapToOffsets : Obligations.WindowAddressesMapToOffsets := by
  refine ⟨Nat.mul_mod_right _ _, fun off => ?_, fun pa hpa => ?_⟩
  · have hlt : off.toNat < 0x400 := off.isLt
    rw [windowOffset, if_pos (by omega), Nat.add_sub_cancel_left, BitVec.ofNat_toNat,
      BitVec.setWidth_eq]
  · rw [windowOffset, if_neg (by omega)]

/-! ### O33, O38, O43: transactions around a pending command -/

/-- The engine's event completes the pending command (R103). -/
theorem step_of_completion {s : State} {i : Instr} (h : s.EngineNext) (hb : s.busy = true)
    (hi : s.pending = some i) : step s = .next ((s.take .engine).complete (effectOf i)) := by
  obtain ⟨hm, hp⟩ := h
  simp [step, hm, engineStep, hp, hb, hi, exec_eq_lifecycle, State.lifecycle]

/-- Settles O33: the STATUS write keeps the command pending, and its completion comes next. -/
theorem completionWinsOverDoneClear : Obligations.CompletionWinsOverDoneClear := by
  intro s i v o rest order hs hp hin hb hi
  have hwrite : s.HostNext (.access ⟨true, 0x008, 2, v⟩ o) rest :=
    ⟨by rw [State.mover, hs], hp, hin⟩
  refine ⟨_, _, step_of_statusWrite hwrite, step_of_completion ⟨?_, hp⟩ hb hi, hb, fun hv => ?_,
    rfl, rfl, rfl, rfl⟩
  · simp [State.mover, hs]
  · simp [hv]

/-- A move from BUSY to BUSY leaves PENDING, its operands and the chaining state as they are. -/
theorem EngineMove.pending_held {s : State} {e : Engine} (m : EngineMove s e) (hs : s.busy = true)
    (he : e.busy = true) :
    e.pending = s.pending ∧ e.iv = s.iv ∧ e.mask = s.mask ∧ e.data = s.data ∧
      e.maskValid = s.maskValid ∧ (e.done = true → s.done = true) := by
  cases m with
  | completed | reset => cases he
  | accepted i v hw hd hb => exact absurd (hs.symm.trans hb) (by decide)
  | ivWritten i v hw hb => exact absurd (hs.symm.trans hb) (by decide)
  | dataWritten i v hw hb => exact absurd (hs.symm.trans hb) (by decide)
  | statusWritten v =>
    refine ⟨rfl, rfl, rfl, rfl, rfl, fun hd => ?_⟩
    rw [Engine.writeStatus_done, Bool.and_eq_true] at hd
    exact hd.1
  | kept | rejected | ctrlWritten => exact ⟨rfl, rfl, rfl, rfl, rfl, id⟩

/-- Settles O38, from the moves that leave BUSY set. -/
theorem pendingCommandIsHeld : Obligations.PendingCommandIsHeld :=
  fun _ _ hs h hp ht => (engineMove_of_step h hp).pending_held hs ht

/-- With power before and after it, a step draws no free value, but for a busy read of the files. -/
theorem draws_of_step {s t : State} (h : step s = .next t) (hs : s.powerLost = false)
    (hp : t.powerLost = false) :
    t.draws = s.draws ∨ ∃ a o rest, s.HostNext (.access a o) rest ∧ a.write = false ∧
      s.busy = true ∧ (regAt a.addr).inFile = true := by
  rcases step_cases h with
    ⟨-, -, -, i, -, rfl⟩ | ⟨-, -, rfl⟩ | ⟨-, -, rfl⟩ | ⟨p, rest, -, -, rfl⟩ | ⟨rest, -, -, rfl⟩ |
    ⟨inp, rest, -, hl, -, -, rfl⟩ | ⟨rest, -, rfl⟩ | ⟨a, rest, -, -, rfl⟩ |
    ⟨a, o, rest, hn, -, hw, rfl⟩ | ⟨a, o, rest, -, -, -, -, rfl⟩ |
    ⟨a, o, rest, i, -, -, -, -, -, rfl⟩ | ⟨a, o, rest, d, -, -, -, -, -, rfl⟩
  · exact .inl rfl
  · exact .inl (by rw [State.idle_of_power (by simpa using hp)]; rfl)
  · exact .inl (by rw [State.idle_of_power (by simpa using hp)]; rfl)
  · exact .inl (State.resetEdge_draws p _)
  · simp at hp
  · exact absurd (hs.symm.trans hl) (by decide)
  · exact .inl (State.waitStep_draws _)
  · exact .inl rfl
  · cases hf : (s.afterInput rest).readIsFree (regAt a.addr) with
    | true => exact .inr ⟨a, o, rest, hn, hw, (State.readIsFree_iff _ _).1 hf⟩
    | false => exact .inl (by simp [hf])
  · exact .inl rfl
  · exact .inl (State.issue_draws i _ _)
  · exact .inl rfl

/-- A write that keeps the hazard rule is not one on which an error is recorded (R52, R147). -/
theorem HostRespects.not_mayReject {s : State} {off : BitVec 10} {v : Word} {o : OnBusError}
    (h : HostRespects s (.access ⟨true, off, 2, v⟩ o)) (hb : s.busy = true) :
    ¬ s.MayReject off := by
  obtain ⟨hcmd, hiv, hdata⟩ := (h hb).1 rfl
  rintro (hoff | ⟨-, hoff⟩)
  · exact hcmd (hoff ▸ regAt_cmd)
  · rcases regAt_ivOrData hoff with ⟨i, hr⟩ | ⟨i, hr⟩
    · exact hiv i hr
    · exact hdata i hr

/-- Settles O43: the only event that records an error, and the only one that draws a free value, are
the accesses that R147 forbids. -/
theorem hazardFreeHostSeesNoBusyError : Obligations.HazardFreeHostSeesNoBusyError := by
  intro s t inp rest ⟨hm, hs, hin⟩ hb hrespects h hp
  refine ⟨fun ht => ?_, ?_⟩
  · cases herr : s.err with
    | true => rfl
    | false =>
      obtain ⟨off, v, ⟨-, o, rest', hin'⟩, hoff, -⟩ := (engineMove_of_step h hp).err_rise herr ht
      obtain ⟨rfl, -⟩ := List.cons.inj (hin.symm.trans hin')
      exact absurd hoff (hrespects.not_mayReject hb)
  · rcases draws_of_step h hs hp with hd | ⟨a, o, rest', ⟨-, -, hin'⟩, hw, -, hf⟩
    · exact hd
    · obtain ⟨rfl, -⟩ := List.cons.inj (hin.symm.trans hin')
      exact absurd hf (by simp [(hrespects hb).2 hw])

end Sys2Proof.Machine
end

section
/-! PROOF. The encoding (30_encoding.md): the decoder said once as an inverse of the encoder, what a
CMD write makes of a word the decoder rejects, and the end of WAIT (R75). -/

namespace Sys2Proof

/-! ### O1, O2, O3: the decoder and the encoder -/

/-- The opcode map read in both directions (R71). -/
theorem instrOfOp_eq_some_iff (op : BitVec 4) (i : Instr) :
    instrOfOp op = some i ↔ op = opOfInstr i := by
  revert op
  cases i <;> decide

/-- A word is a command's word iff its fields are zero and the opcode (R68, R71). -/
theorem eq_encode_iff (v : Word) (i : Instr) :
    v = encode i ↔ mbzField v = 0 ∧ opField v = opOfInstr i := by
  have hop : (opOfInstr i).toNat < 16 := (opOfInstr i).isLt
  rw [mbzField_eq_zero_iff, ← BitVec.toNat_inj, ← BitVec.toNat_inj, encode_toNat, opField_toNat]
  omega

/-- Decoding is the inverse of encoding (R71, R72). -/
theorem decode_eq_ok_iff_eq_encode (v : Word) (i : Instr) : decode v = .ok i ↔ v = encode i := by
  rw [Machine.decode_eq_ok_iff, instrOfOp_eq_some_iff, eq_encode_iff]

@[simp] theorem decode_encode (i : Instr) : decode (encode i) = .ok i :=
  (decode_eq_ok_iff_eq_encode _ i).2 rfl

theorem encode_injective : Function.Injective encode := by
  intro i j h
  have hj : decode (encode i) = .ok j := (decode_eq_ok_iff_eq_encode _ j).2 h
  exact Except.ok.inj ((decode_encode i).symm.trans hj)

/-- Settles O3, from the decoder as the inverse of the encoder. -/
theorem decodeEncodeAgree : Obligations.DecodeEncodeAgree :=
  ⟨fun i _ => decode_encode i, fun v i => (decode_eq_ok_iff_eq_encode v i).1⟩

/-- A nonzero MBZ is named before the opcode is looked at (R72). -/
theorem decode_of_mbz {v : Word} (h : v.toNat / 16 ≠ 0) : decode v = .error .mbzNotZero := by
  rw [decode, if_pos (mt (mbzField_eq_zero_iff v).1 h)]

/-- A word with an opcode of R71 decodes to the command of that opcode. -/
theorem decode_of_opcode {v : Word} (hz : v.toNat / 16 = 0) (hop : v.toNat % 16 ≤ 7) :
    ∃ i, decode v = .ok i ∧ (opOfInstr i).toNat = v.toNat % 16 := by
  rw [← opField_toNat] at hop ⊢
  obtain ⟨i, hi⟩ := (Machine.instrOfOp_defined_iff _).2 hop
  have hfield : opField v = opOfInstr i := (instrOfOp_eq_some_iff _ i).1 hi
  exact ⟨i, (Machine.decode_eq_ok_iff v i).2 ⟨(mbzField_eq_zero_iff v).2 hz, hi⟩, by rw [hfield]⟩

/-- With MBZ zero, the opcodes past those of R71 are reserved (R72). -/
theorem decode_of_reservedOp {v : Word} (hz : v.toNat / 16 = 0) (hop : 8 ≤ v.toNat % 16) :
    decode v = .error .reservedOp := by
  have hnone : instrOfOp (opField v) = none := by
    by_contra hsome
    have hle := (Machine.instrOfOp_defined_iff _).1 (Option.ne_none_iff_exists'.1 hsome)
    rw [opField_toNat] at hle
    omega
  rw [decode, if_neg (not_not.2 ((mbzField_eq_zero_iff v).2 hz)), hnone]

/-- A word outside the format of R68 and R71 is illegal (R72, R73). -/
theorem decode_of_illegal {v : Word} (h : v.toNat / 16 ≠ 0 ∨ 8 ≤ v.toNat % 16) :
    ∃ d, decode v = .error d := by
  by_cases hz : v.toNat / 16 = 0
  · exact ⟨_, decode_of_reservedOp hz (h.resolve_left (not_not.2 hz))⟩
  · exact ⟨_, decode_of_mbz hz⟩

/-- The rows of the opcode table (R71). -/
def commands : Finset Instr :=
  {.nop, .keysched, .encblk, .decblk, .perm, .unperm, .setmask, .clear}

theorem mem_commands (i : Instr) : i ∈ commands := by
  cases i <;> decide

theorem commands_card : commands.card = 8 := rfl

/-- The words that decode are the words of the table's commands. -/
theorem setOf_decodes_eq_image : {v : Word | ∃ i, decode v = .ok i} = encode '' commands := by
  ext v
  refine exists_congr fun i => ?_
  rw [decode_eq_ok_iff_eq_encode, eq_comm, Finset.mem_coe, and_iff_right (mem_commands i)]

/-- Settles O2: the clauses field by field, and the count by the injectivity of the encoder. -/
theorem decoderAcceptsExactlyEightWords : Obligations.DecoderAcceptsExactlyEightWords := by
  refine ⟨fun v => ⟨decode_of_mbz, decode_of_reservedOp, decode_of_opcode⟩, ?_⟩
  rw [setOf_decodes_eq_image, Set.ncard_image_of_injective _ encode_injective,
    Set.ncard_coe_finset, commands_card]

/-- Settles O1: the legal words are encodings, the others break one clause of the format each. -/
theorem specWordsDecode : Obligations.SpecWordsDecode :=
  ⟨decode_encode .nop, decode_encode .keysched, decode_encode .encblk, decode_encode .unperm,
    decode_encode .clear, decode_of_reservedOp (by decide) (by decide), decode_of_mbz (by decide)⟩

end Sys2Proof

namespace Sys2Proof.Machine

/-! ### O8: a CMD write that is rejected -/

/-- The step of any CMD write: the word goes to the decoder (R102). -/
theorem step_of_cmdWord {s : State} {rest : List Input} {v : Word} {o : OnBusError}
    (h : s.HostNext (.access ⟨true, 0x00C, 2, v⟩ o) rest) :
    step s = issueWord v ((s.afterInput rest).answer .writeDone) :=
  step_of_cmdWrite h ((accessLegal_word true 0x00C v).2 (by decide)) rfl regAt_cmd

/-- An illegal word written to CMD while idle records code 1 (R73). -/
theorem issueWord_illegal {s : State} {v : Word} {d : DecodeError} (hd : decode v = .error d)
    (hb : s.busy = false) : issueWord v s = .next (s.withError 1) := by
  rcases issueWord_cases v s with ⟨i, hi, -⟩ | ⟨-, -, he⟩
  · rw [hd] at hi
    cases hi
  · rw [he, hb]
    rfl

/-- Settles O8: while idle the decoder rejects the word, while busy the issue rejects every word. -/
theorem illegalWordIsRejected : Obligations.IllegalWordIsRejected := by
  intro s rest v o h
  rw [step_of_cmdWord h]
  refine ⟨fun hb hv => ?_, fun hb => issueWord_busy v rfl hb⟩
  obtain ⟨d, hd⟩ := decode_of_illegal hv
  exact issueWord_illegal hd hb

/-! ### O34: the end of WAIT -/

/-- A run begins with a step. -/
theorem run_succ_of_step {M : Host.Core} {s u : M.State} (h : M.step s = .next u) (k : Nat) :
    M.run (k + 1) s = M.run k u := by
  simp only [Host.Core.run, h]

/-- Within `n` steps the machine passes from `s` to an idle engine with `rest` still to present. -/
def State.WaitEndsWithin (s : State) (rest : List Input) (n : Nat) : Prop :=
  ∃ k t, k ≤ n ∧ Sys2Proof.core.run k s = .next t ∧
    t.inputs = rest ∧ t.busy = false ∧ t.pending = none

theorem State.WaitEndsWithin.mono {s : State} {rest : List Input} {m n : Nat}
    (h : s.WaitEndsWithin rest m) (hle : m ≤ n) : s.WaitEndsWithin rest n := by
  obtain ⟨k, t, hk, ht⟩ := h
  exact ⟨k, t, hk.trans hle, ht⟩

/-- The end is one step further from the state before. -/
theorem State.WaitEndsWithin.of_step {s u : State} {rest : List Input} {n : Nat}
    (hs : step s = .next u) (h : u.WaitEndsWithin rest n) : s.WaitEndsWithin rest (n + 1) := by
  obtain ⟨k, t, hk, hrun, ht⟩ := h
  exact ⟨k + 1, t, Nat.succ_le_succ hk, (run_succ_of_step hs k).trans hrun, ht⟩

theorem State.mover_of_schedule_cons {s : State} {a : Agent} {order : List Agent}
    (h : s.schedule = a :: order) : s.mover = a := by
  rw [State.mover, h]

/-- With no order laid down, a powered engine completes its command before the host moves (log 1). -/
theorem State.mover_of_schedule_nil {s : State} (h : s.schedule = []) (hp : s.powerLost = false) :
    s.mover = if s.busy then .engine else .host := by
  rw [State.mover, h, hp]
  rfl

/-- While `BUSY = 0` the engine has no step (R103). -/
theorem step_of_engineIdle {s : State} (h : s.EngineNext) (hb : s.busy = false) :
    step s = .next (s.take .engine) := by
  obtain ⟨hm, hp⟩ := h
  simp [step, hm, engineStep, hp, hb]

/-- The host's event passes WAIT on an idle engine (R75). -/
theorem waitEndsWithin_of_hostNext {s : State} {rest : List Input} (h : s.HostNext .wait rest)
    (hidle : s.Idle) : s.WaitEndsWithin rest 1 := by
  obtain ⟨hb, hpend, -⟩ := hidle
  have hstep : step s = .next (s.afterInput rest) := by
    rw [step_of_wait h, State.waitStep_eq, if_neg (by simp [hb])]
  exact .of_step hstep ⟨0, _, le_rfl, rfl, rfl, hb, hpend⟩

/-- An idle engine lets its own events of the schedule pass, and the host's first passes WAIT. -/
theorem waitEndsWithin_of_idle {s : State} {rest : List Input} (hidle : s.Idle)
    (hin : s.inputs = .wait :: rest) : s.WaitEndsWithin rest (s.schedule.length + 1) := by
  obtain ⟨hb, -, hl⟩ := id hidle
  induction hsch : s.schedule generalizing s with
  | nil =>
    have hm : s.mover = .host := by rw [State.mover_of_schedule_nil hsch hl, hb]; rfl
    exact waitEndsWithin_of_hostNext ⟨hm, hl, hin⟩ hidle
  | cons a order ih =>
    have hm : s.mover = a := State.mover_of_schedule_cons hsch
    cases a with
    | host => exact (waitEndsWithin_of_hostNext ⟨hm, hl, hin⟩ hidle).mono (by simp)
    | engine =>
      exact .of_step (step_of_engineIdle ⟨hm, hl⟩ hb)
        (ih hidle hin hb hl (by rw [State.take_schedule, hsch, List.tail_cons]))

/-- The completion makes the engine idle, and then WAIT is passed. -/
theorem waitEndsWithin_of_engineNext {s : State} {rest : List Input} {i : Instr}
    (h : s.EngineNext) (hb : s.busy = true) (hi : s.pending = some i)
    (hin : s.inputs = .wait :: rest) : s.WaitEndsWithin rest (s.schedule.length + 2) := by
  have hidle : ((s.take .engine).complete (effectOf i)).Idle := ⟨rfl, rfl, h.2⟩
  refine (State.WaitEndsWithin.of_step (step_of_completion h hb hi)
    (waitEndsWithin_of_idle hidle hin)).mono ?_
  rw [State.complete_schedule, State.take_schedule, List.length_tail]
  omega

/-- WAIT is read again at each host event until the engine's event completes the command (R155). -/
theorem waitEndsWithin_of_pending {s : State} {rest : List Input} {i : Instr}
    (hl : s.powerLost = false) (hb : s.busy = true) (hi : s.pending = some i)
    (hin : s.inputs = .wait :: rest) : s.WaitEndsWithin rest (s.schedule.length + 2) := by
  induction hsch : s.schedule generalizing s with
  | nil =>
    have hm : s.mover = .engine := by rw [State.mover_of_schedule_nil hsch hl, hb]; rfl
    rw [← hsch]
    exact waitEndsWithin_of_engineNext ⟨hm, hl⟩ hb hi hin
  | cons a order ih =>
    have hm : s.mover = a := State.mover_of_schedule_cons hsch
    cases a with
    | engine =>
      rw [← hsch]
      exact waitEndsWithin_of_engineNext ⟨hm, hl⟩ hb hi hin
    | host =>
      have hstep : step s = .next { s.afterInput rest with inputs := .wait :: rest } := by
        rw [step_of_wait ⟨hm, hl, hin⟩, State.waitStep_eq, if_pos (by simpa using hb)]
        rfl
      exact .of_step hstep (ih hl hb hi rfl (by simp [hsch]))

/-- Settles O34: by the invariants BUSY says whether there is a command to complete first. -/
theorem waitEnds : Obligations.WaitEnds := by
  intro s rest hinv hl hin
  have hiff := (hinv hl).busy_iff_pending
  cases hb : s.busy with
  | false =>
    have hpend : s.pending = none := by
      by_contra hne
      exact absurd (hb.symm.trans (hiff.2 hne)) (by decide)
    exact (waitEndsWithin_of_idle ⟨hb, hpend, hl⟩ hin).mono (by omega)
  | true =>
    obtain ⟨i, hi⟩ := Option.ne_none_iff_exists'.1 (hiff.1 hb)
    exact waitEndsWithin_of_pending hl hb hi hin

end Sys2Proof.Machine
end

section
/-! PROOF. The key schedule (40_key_schedule.md): row 0 of it is the IV, so it is injective (R80), and
the chaining carries a difference of the masks on to every ciphertext block (R125). -/

namespace Sys2Proof.Machine

/-! ### O11: KEYSCHED -/

/-- The engine's event of the pending command carries out its pseudocode (R103). -/
theorem exec_of_atCompletion {i : Instr} {s : State} (h : s.AtCompletion i) :
    exec i s = .next (s.complete (effectOf i)) := by
  obtain ⟨ht, hb, hi⟩ := h
  simp [exec_eq_lifecycle, State.lifecycle, ht, hb, hi]

/-- Mask word `w` of the key schedule (R78). -/
theorem ksw_getElem (iv : IvFile) {w : Nat} (hw : w < 64) :
    (ksw iv)[w] = rotb (iv[w % 8]'(by omega)) (w / 8) := by
  rw [ksw, tabulate_getElem]

/-- Settles O11: the completion writes the key schedule to MASK. -/
theorem keyschedCompletes : Obligations.KeyschedCompletes :=
  fun s h => ⟨ksw s.iv, fun w => ksw_getElem s.iv w.isLt, exec_of_atCompletion h⟩

/-! ### O45: the key schedule is injective -/

/-- The rotation by 0 changes no byte (R14). -/
theorem rotb_zero (x : Word) : rotb x 0 = x := leWord_byteLane x

/-- Row 0 of the key schedule is the IV (R80). -/
theorem ksw_getElem_row_zero (iv : IvFile) {i : Nat} (hi : i < 8) :
    (ksw iv)[i]'(by omega) = iv[i] := by
  simp only [ksw_getElem iv (show i < 64 by omega), Nat.mod_eq_of_lt hi, Nat.div_eq_of_lt hi,
    rotb_zero]

theorem ksw_injective : Function.Injective ksw := by
  intro v v' h
  ext i hi : 1
  rw [← ksw_getElem_row_zero v hi, ← ksw_getElem_row_zero v' hi, h]

/-- Settles O45: the IV is read back from row 0. -/
theorem keyScheduleInjective : Obligations.KeyScheduleInjective :=
  fun _ _ h => ksw_injective h

/-! ### O49: every ciphertext block depends on the IV -/

/-- One plaintext block keeps two masks apart (R91). -/
theorem xorb_right_injective (p : Block) : Function.Injective (xorb p) := by
  intro m m' h
  ext i hi : 1
  have hword : (xorb p m)[i] = (xorb p m')[i] := by rw [h]
  simpa only [xorb, tabulate_getElem, Fin.getElem_fin, BitVec.xor_right_inj] using hword

/-- Block 0 differs with the mask, and each block is the mask of the next (R93, R125). -/
theorem encChain_getElem?_ne {perm : Block → Block} (hperm : Function.Injective perm)
    {m m' : Block} (hm : m ≠ m') {ps : List Block} {k : Nat} (hk : k < ps.length) :
    (encChain perm m ps)[k]? ≠ (encChain perm m' ps)[k]? := by
  induction ps generalizing m m' k with
  | nil => exact absurd hk (Nat.not_lt_zero k)
  | cons p ps ih =>
    have hblock : perm (xorb p m) ≠ perm (xorb p m') :=
      (hperm.comp (xorb_right_injective p)).ne hm
    cases k with
    | zero => exact (Option.some_injective Block).ne hblock
    | succ k => exact ih hblock (Nat.lt_of_succ_lt_succ hk)

/-- Settles O49: different IVs start the chain from different masks. -/
theorem everyBlockDependsOnIv : Obligations.EveryBlockDependsOnIv :=
  fun π _ _ _ _ hv hk => encChain_getElem?_ne π.injective (ksw_injective.ne hv) hk

end Sys2Proof.Machine
end

section
/-! PROOF. The permutation unit (41_permutation.md): PERM and UNPERM carry out their pseudocodes, and
DECBLK undoes ENCBLK because UNPERM undoes PERM (R84) and a mask cancels itself (R91). -/

namespace Sys2Proof.Machine

/-! ### O14: PERM and UNPERM -/

/-- Settles O14: each completion carries out its pseudocode, which writes DATA alone (R89, R90). -/
theorem permAndUnpermComplete : Obligations.PermAndUnpermComplete :=
  ⟨fun _ h => exec_of_atCompletion h, fun _ h => exec_of_atCompletion h⟩

/-! ### O46: DECBLK undoes ENCBLK -/

/-- The first law of R84. -/
@[simp] theorem unperm_perm (x : Block) : Config.unperm (Config.perm x) = x :=
  Config.permutation.symm_apply_apply x

/-- A mask that is applied twice cancels (R91). -/
@[simp] theorem xorb_xorb_cancel_right (a m : Block) : xorb (xorb a m) m = a := by
  ext i hi : 1
  simp only [xorb, tabulate_getElem, Fin.getElem_fin, BitVec.xor_assoc, BitVec.xor_self,
    BitVec.xor_zero]

/-- DECBLK's pseudocode on the ciphertext of ENCBLK's, under the mask from before (R98). -/
theorem decblkEffect_of_encblkEffect {e d : Engine}
    (hdata : d.data = (encblkEffect Config.perm e).data) (hmask : d.mask = e.mask) :
    (decblkEffect Config.unperm d).data = e.data ∧
    (decblkEffect Config.unperm d).mask = (encblkEffect Config.perm e).mask := by
  constructor
  · calc (decblkEffect Config.unperm d).data
      _ = xorb (Config.unperm (Config.perm (xorb e.data e.mask))) e.mask := by
        rw [decblkEffect_data, hdata, hmask, encblkEffect_data]
      _ = e.data := by rw [unperm_perm, xorb_xorb_cancel_right]
  · rw [decblkEffect_mask, hdata, encblkEffect_data, encblkEffect_mask]

/-- Settles O46: both completions carry out their pseudocodes (R103), and these undo each other. -/
theorem decblkUndoesEncblk : Obligations.DecblkUndoesEncblk := by
  intro s t s' hs hexec hs' hdata hmask
  obtain rfl : s.complete (effectOf .encblk) = t :=
    Host.Outcome.next.inj ((exec_of_atCompletion hs).symm.trans hexec)
  exact ⟨s'.complete (effectOf .decblk), exec_of_atCompletion hs',
    decblkEffect_of_encblkEffect hdata hmask⟩

end Sys2Proof.Machine
end

section
/-! PROOF. The chaining mode (42_chaining.md): the three completions, the chain of a list of blocks
read block by block (R98, R100, R101), and the host's program that decrypts one block alone (R100).
The parts of that program are stated as what they do to an idle engine, so that they compose. -/

namespace Sys2Proof.Machine

/-! ### O12, O13, O15: the completions -/

/-- Settles O12: PERM is applied to the lanewise XOR of R91. -/
theorem encblkCompletes : Obligations.EncblkCompletes :=
  fun s h => ⟨xorb s.data s.mask, fun j => tabulate_getElem_fin 64 _ j, exec_of_atCompletion h⟩

/-- Settles O13: the mask is the one from before the update (R16). -/
theorem decblkCompletes : Obligations.DecblkCompletes :=
  fun s h => ⟨xorb (Config.unperm s.data) s.mask, fun j => tabulate_getElem_fin 64 _ j,
    exec_of_atCompletion h⟩

/-- Settles O15: the completion carries out its pseudocode (R97). -/
theorem setmaskCompletes : Obligations.SetmaskCompletes :=
  fun _ h => exec_of_atCompletion h

/-! ### O47, O48: the chain of a list of blocks -/

/-- Settles O47, by induction on the blocks: the ciphertext just undone is the mask of the rest. -/
theorem chainRoundTrip : Obligations.ChainRoundTrip := by
  intro π m ps
  induction ps generalizing m with
  | nil => rfl
  | cons p ps ih =>
    simp only [encChain, decChain, Equiv.symm_apply_apply, xorb_xorb_cancel_right, ih]

/-- Each plaintext block needs its ciphertext block and the one before it, or the first mask (R100). -/
theorem decChain_eq_zipWith (unperm : Block → Block) (m : Block) (cs : List Block) :
    decChain unperm m cs = List.zipWith (fun c before => xorb (unperm c) before) cs (m :: cs) := by
  induction cs generalizing m with
  | nil => rfl
  | cons c cs ih => rw [decChain, ih, List.zipWith_cons_cons]

/-- A change of the mask changes the XOR with it by the difference (R91). -/
theorem xorb_xorb_difference (a m m' : Block) : xorb (xorb a m) (xorb m m') = xorb a m' := by
  ext i hi : 1
  simp only [xorb, tabulate_getElem, Fin.getElem_fin]
  rw [BitVec.xor_assoc, ← BitVec.xor_assoc m[i], BitVec.xor_self, BitVec.zero_xor]

/-- Settles O48: block `k` is in the place of the ciphertext for plaintext `k`, and of the mask for
plaintext `k + 1`. -/
theorem corruptionTouchesTwoBlocks : Obligations.CorruptionTouchesTwoBlocks := by
  intro unperm m c' cs k hk
  simp only [decChain_eq_zipWith, List.getElem?_zipWith', ← List.set_cons_succ]
  refine ⟨fun j hj hj' => ?_, ?_⟩
  · rw [List.getElem?_set_ne hj.symm, List.getElem?_set_ne hj'.symm]
  · have hc : (cs.set k c')[k + 1]? = cs[k + 1]? := List.getElem?_set_ne (Nat.ne_add_one k)
    have hbefore : ((m :: cs).set (k + 1) c')[k + 1]? = some c' :=
      List.getElem?_set_self (Nat.succ_lt_succ hk)
    rw [hc, hbefore, List.getElem?_cons_succ, List.getElem?_eq_getElem hk]
    cases cs[k + 1]? with
    | none => rfl
    | some c => exact congrArg some (xorb_xorb_difference (unperm c) cs[k] c').symm

/-! ### Programs of the host on an idle engine -/

/-- The engine is idle with the registers `e`, `program` is still to be presented, and the host's reads
have returned `words`. -/
def State.IdleWith (s : State) (e : Engine) (program : List Input) (words : List Word) : Prop :=
  s.toEngine = e ∧ s.Idle ∧ s.inputs = program ∧ answerWords s.received = words

/-- Whatever the order of events, an idle engine with the registers `e` runs through `program`, is idle
again with the registers `e'`, and has returned `answers`. -/
def Performs (e : Engine) (program : List Input) (e' : Engine) (answers : List Word) : Prop :=
  ∀ (s : State) (rest : List Input) (words : List Word), s.IdleWith e (program ++ rest) words →
    ∃ t, Reaches s t ∧ t.IdleWith e' rest (words ++ answers)

theorem answerWords_cons_value (w : Word) (received : List Response) :
    answerWords (.value w :: received) = answerWords received ++ [w] := by
  simp [answerWords]

theorem answerWords_cons_writeDone (received : List Response) :
    answerWords (.writeDone :: received) = answerWords received := by
  simp [answerWords]

theorem Performs.nil (e : Engine) : Performs e [] e [] := by
  intro s rest words hs
  exact ⟨s, .refl s, by rwa [List.append_nil]⟩

/-- Programs one after the other. -/
theorem Performs.append {e e₁ e₂ : Engine} {p q : List Input} {a b : List Word}
    (hp : Performs e p e₁ a) (hq : Performs e₁ q e₂ b) : Performs e (p ++ q) e₂ (a ++ b) := by
  intro s rest words hs
  rw [List.append_assoc] at hs
  obtain ⟨t, hst, ht⟩ := hp s (q ++ rest) words hs
  obtain ⟨u, htu, hu⟩ := hq t rest (words ++ a) ht
  exact ⟨u, hst.trans htu, by rwa [← List.append_assoc]⟩

/-- A program that is all there is to present brings the run to its end (R157). -/
theorem Performs.reaches_final {s : State} {e' : Engine} {answers : List Word}
    (h : Performs s.toEngine s.inputs e' answers) (hidle : s.Idle) (hr : s.received = []) :
    ∃ t, Reaches s t ∧ t.Final ∧ t.toEngine = e' ∧ answerWords t.received = answers := by
  have hs : s.IdleWith s.toEngine (s.inputs ++ []) [] :=
    ⟨rfl, hidle, (List.append_nil _).symm, by rw [hr]; rfl⟩
  obtain ⟨t, hst, he, ⟨hb, -, hl⟩, hin, hw⟩ := h s [] [] hs
  exact ⟨t, hst, ⟨hin, hb, hl⟩, he, hw⟩

/-- The host's next event comes, and nothing has changed till then. -/
theorem State.IdleWith.reaches_hostNext {s : State} {e : Engine} {inp : Input} {rest : List Input}
    {words : List Word} (hs : s.IdleWith e (inp :: rest) words) :
    ∃ t, Reaches s t ∧ t.HostNext inp rest ∧ t.IdleWith e (inp :: rest) words := by
  obtain ⟨he, ⟨hb, hpend, hl⟩, hin, hw⟩ := hs
  obtain ⟨order, turn, hst, hm⟩ := reaches_host_turn s hb hl
  exact ⟨_, hst, ⟨hm, hl, hin⟩, he, ⟨hb, hpend, hl⟩, hin, hw⟩

/-- An input whose step leaves the engine idle is performed by that step. -/
theorem performs_of_step {e e' : Engine} {inp : Input} {answers : List Word}
    (h : ∀ (s : State) (rest : List Input) (words : List Word), s.HostNext inp rest →
      s.IdleWith e (inp :: rest) words →
      ∃ t, step s = .next t ∧ t.IdleWith e' rest (words ++ answers)) :
    Performs e [inp] e' answers := by
  intro s rest words hs
  obtain ⟨t, hst, hnext, ht⟩ := hs.reaches_hostNext
  obtain ⟨u, hstep, hu⟩ := h t rest words hnext ht
  exact ⟨u, .tail hst hstep, hu⟩

/-! ### Register accesses of a program -/

theorem Engine.writeReg_busy_pending (r : Reg) (v : Word) (e : Engine) :
    (e.writeReg r v).busy = e.busy ∧ (e.writeReg r v).pending = e.pending := by
  rcases Engine.writeReg_cases r v e with
    ⟨-, he⟩ | ⟨-, he⟩ | ⟨_, -, -, he⟩ | ⟨_, -, -, he⟩ | ⟨-, -, he⟩ | ⟨-, he⟩ <;>
    rw [he] <;> exact ⟨rfl, rfl⟩

/-- A write to a register other than CMD (R47). -/
theorem performs_wr {off : BitVec 10} (h4 : off.toNat % 4 = 0) (hc : regAt off ≠ .cmd) (v : Word)
    (e : Engine) : Performs e [wr off v] (e.writeReg (regAt off) v) [] := by
  refine performs_of_step fun s rest words hnext hs => ?_
  obtain ⟨rfl, ⟨hb, hpend, hl⟩, -, hw⟩ := hs
  obtain ⟨hb', hpend'⟩ := s.writeReg_busy_pending (regAt off) v
  refine ⟨_, step_of_alignedWrite hnext rfl h4 rfl hc, rfl, ⟨hb'.trans hb, hpend'.trans hpend, hl⟩,
    rfl, ?_⟩
  rw [answerWords_cons_writeDone, hw, List.append_nil]

/-- A read (R46). -/
theorem performs_rd {off : BitVec 10} (h4 : off.toNat % 4 = 0) (e : Engine) :
    Performs e [rd off] e [e.readReg (regAt off)] := by
  refine performs_of_step fun s rest words hnext hs => ?_
  obtain ⟨rfl, ⟨hb, hpend, hl⟩, -, hw⟩ := hs
  refine ⟨_, step_of_alignedRead hnext rfl h4 rfl, rfl, ⟨hb, hpend, hl⟩, rfl, ?_⟩
  rw [answerWords_cons_value, (State.read_known (.inl hb)).1, hw]

theorem offset_data_aligned (i : Fin 64) : (Reg.offset (.data i)).toNat % 4 = 0 := by
  simp only [Reg.offset, BitVec.toNat_ofNat]
  omega

/-- A write to a DATA word (R22, R47). -/
theorem performs_wr_data {e : Engine} (hb : e.busy = false) (i : Fin 64) (v : Word) :
    Performs e [wr (Reg.offset (.data i)) v] { e with data := e.data.set i v } [] := by
  have hwr := performs_wr (offset_data_aligned i) (by rw [regAt_offset_data]; nofun) v e
  simpa [Engine.writeReg, hb] using hwr

/-- A read of a DATA word (R22, R46). -/
theorem performs_rd_data (e : Engine) (i : Fin 64) :
    Performs e [rd (Reg.offset (.data i))] e [e.data[i]] := by
  simpa [Engine.readReg] using performs_rd (offset_data_aligned i) e

/-- `d` after the words of `b` at `lanes` are written to it, one after the other. -/
def writeLanes (b : Block) (lanes : List (Fin 64)) (d : Block) : Block :=
  lanes.foldl (fun (d : Block) (i : Fin 64) => d.set i b[i]) d

theorem writeLanes_getElem (b : Block) (lanes : List (Fin 64)) (d : Block) (j : Fin 64) :
    (writeLanes b lanes d)[j] = if j ∈ lanes then b[j] else d[j] := by
  induction lanes generalizing d with
  | nil => rfl
  | cons i lanes ih =>
    rw [writeLanes, List.foldl_cons, ← writeLanes, ih]
    by_cases hj : j = i
    · simp [hj]
    · have hne : i.val ≠ j.val := fun h => hj (Fin.ext h.symm)
      simp [hj, Vector.getElem_set_ne, hne]

theorem writeLanes_finRange (b d : Block) : writeLanes b (List.finRange 64) d = b := by
  ext i hi : 1
  simpa using writeLanes_getElem b (List.finRange 64) d ⟨i, hi⟩

/-- Writes to DATA words one after the other. -/
theorem performs_wr_lanes (b : Block) (lanes : List (Fin 64)) {e : Engine} (hb : e.busy = false) :
    Performs e (lanes.map fun i => wr (Reg.offset (.data i)) b[i])
      { e with data := writeLanes b lanes e.data } [] := by
  induction lanes generalizing e with
  | nil => exact .nil e
  | cons i lanes ih => exact (performs_wr_data hb i b[i]).append (ih hb)

/-- A block is loaded to DATA (R75). -/
theorem performs_ldblock (b : Block) {e : Engine} (hb : e.busy = false) :
    Performs e (ldblock b) { e with data := b } [] := by
  have hwr := performs_wr_lanes b (List.finRange 64) hb
  rwa [writeLanes_finRange] at hwr

/-- Reads of DATA words one after the other. -/
theorem performs_rd_lanes (e : Engine) (lanes : List (Fin 64)) :
    Performs e (lanes.map fun i => rd (Reg.offset (.data i))) e (lanes.map fun i => e.data[i]) := by
  induction lanes with
  | nil => exact .nil e
  | cons i lanes ih => exact (performs_rd_data e i).append ih

/-- DATA is read back in order (R75). -/
theorem performs_stblk (e : Engine) : Performs e stblk e e.data.toList := by
  have hlanes : (List.finRange 64).map (fun i => e.data[i]) = e.data.toList := by
    apply List.ext_getElem <;> simp
  exact hlanes ▸ performs_rd_lanes e (List.finRange 64)

/-! ### Commands of a program -/

/-- The registers after a command: its pseudocode and the lifecycle of R103. -/
def Engine.completed (i : Instr) (e : Engine) : Engine :=
  { effectOf i e with pending := none, busy := false, done := true }

/-- The acceptance sets only what the completion sets again (R102, R103). -/
theorem Engine.completed_of_accepted (i : Instr) (e : Engine) :
    Engine.completed i { e with pending := some i, busy := true, done := false } = e.completed i := by
  cases i <;> rfl

/-- The machine after a CMD write that starts command `i` (R102). -/
def State.accepted (i : Instr) (rest : List Input) (s : State) : State :=
  { (s.afterInput rest).answer .writeDone with pending := some i, busy := true, done := false }

theorem step_of_accepted {s : State} {i : Instr} {rest : List Input} (h : s.HostNext (cmd i) rest)
    (hb : s.busy = false) (hmask : needsMask i = true → s.maskValid = true) :
    step s = .next (s.accepted i rest) := by
  have hissue :
      ((s.afterInput rest).answer .writeDone).issue i (needsMask i) = s.accepted i rest := by
    rcases ((s.afterInput rest).answer .writeDone).issue_cases i (needsMask i) with
      ⟨hb', -⟩ | ⟨-, hn, hm, -⟩ | ⟨-, -, he⟩
    · exact absurd (hb.symm.trans hb') nofun
    · exact absurd (hm.symm.trans (hmask hn)) nofun
    · exact he
  rw [step_of_command h (decode_encode i), exec_eq_lifecycle, ← hissue]
  rfl

/-- `RUN` of a command that is accepted (R75, R102, R103). -/
theorem performs_run (i : Instr) {e : Engine} (hmask : needsMask i = true → e.maskValid = true) :
    Performs e (run i) (e.completed i) [] := by
  intro s rest words hs
  obtain ⟨t, hst, hnext, rfl, ⟨hb, -, hl⟩, -, hw⟩ := State.IdleWith.reaches_hostNext hs
  obtain ⟨order, turn, htu⟩ := reaches_wait_end (t.accepted i (.wait :: rest)) rest i rfl rfl hl rfl
  refine ⟨_, (hst.tail (step_of_accepted hnext hb hmask)).trans htu,
    t.toEngine.completed_of_accepted i, ⟨rfl, rfl, hl⟩, rfl, ?_⟩
  exact (answerWords_cons_writeDone t.received).trans (by rw [hw, List.append_nil])

/-! ### O56: a block decrypted alone -/

/-- A block goes through one command and back (R115, R118). -/
theorem performs_blockProgram (i : Instr) (b : Block) {e : Engine} (hb : e.busy = false)
    (hmask : needsMask i = true → e.maskValid = true) :
    Performs e (blockProgram i b) (Engine.completed i { e with data := b })
      (Engine.completed i { e with data := b }).data.toList :=
  ((performs_ldblock b hb).append (performs_run i hmask)).append (performs_stblk _)

/-- A chaining state is loaded by SETMASK (R126). -/
theorem performs_restoreProgram (m : Block) {e : Engine} (hb : e.busy = false) :
    Performs e (restoreProgram m) (Engine.completed .setmask { e with data := m }) [] :=
  (performs_ldblock m hb).append (performs_run .setmask nofun)

/-- Settles O56: SETMASK makes the block before the mask, and DECBLK works from that mask. -/
theorem blockDecryptsAlone : Obligations.BlockDecryptsAlone := by
  intro previous c s hidle hin hr
  obtain ⟨hb, -, -⟩ := id hidle
  have hprogram := (performs_restoreProgram previous hb).append
    (performs_blockProgram .decblk c rfl fun _ => rfl)
  rw [← decryptAloneProgram, ← hin] at hprogram
  obtain ⟨t, hst, hfinal, he, hw⟩ := hprogram.reaches_final hidle hr
  exact ⟨t, hst, hfinal, hw, congrArg Engine.mask he⟩

end Sys2Proof.Machine
end

section
/-! PROOF. The control unit (43_control.md): the acceptance of a command at the host's event (R102),
its completion at the engine's (R103), and the two commands of R107 and R108. -/

namespace Sys2Proof.Machine

/-! ### O9, O7: the acceptance -/

/-- A command at the host's event, by the order of the checks in R102. -/
theorem exec_of_hostTurn {s : State} (i : Instr) (ht : s.turn = .host) :
    exec i s = .next (
      if s.busy = true then s.withError 2
      else if (i = .encblk ∨ i = .decblk) ∧ s.maskValid = false then s.withError 3
      else { s with pending := some i, busy := true, done := false }) := by
  have hexec : exec i s = .next (s.issue i (needsMask i)) := by
    rw [exec_eq_lifecycle, State.lifecycle, ht]
  rw [hexec]
  rcases s.issue_cases i (needsMask i) with ⟨hb, he⟩ | ⟨hb, hn, hm, he⟩ | ⟨hb, hmask, he⟩ <;> rw [he]
  · rw [if_pos hb]
  · rw [if_neg (Bool.eq_false_iff.1 hb), if_pos ⟨(needsMask_iff i).1 hn, hm⟩]
  · have hsupplied : ¬((i = .encblk ∨ i = .decblk) ∧ s.maskValid = false) :=
      fun ⟨hblock, hm⟩ => Bool.eq_false_iff.1 hm (hmask ((needsMask_iff i).2 hblock))
    rw [if_neg (Bool.eq_false_iff.1 hb), if_neg hsupplied]

/-- Settles O9: one branch of the acceptance for each clause. -/
theorem commandIssue : Obligations.CommandIssue := by
  intro i s ht
  rw [exec_of_hostTurn i ht]
  refine ⟨fun hb => ?_, fun hb hblock hm => ?_, fun hb hmask => ?_⟩
  · rw [if_pos hb]
  · rw [if_neg (Bool.eq_false_iff.1 hb), if_pos ⟨hblock, hm⟩]
  · have hsupplied : ¬((i = .encblk ∨ i = .decblk) ∧ s.maskValid = false) :=
      fun ⟨hblock, hm⟩ => Bool.eq_false_iff.1 hm (hmask hblock)
    rw [if_neg (Bool.eq_false_iff.1 hb), if_neg hsupplied]

/-- Settles O7: BUSY is checked before the word is looked at, the decoder before the command. -/
theorem cmdWriteFollowsAcceptanceRule : Obligations.CmdWriteFollowsAcceptanceRule := by
  intro s rest v o h
  rw [step_of_cmdWord h]
  by_cases hb : s.busy = true
  · rw [if_pos hb]
    exact issueWord_busy v rfl hb
  · rw [if_neg hb]
    cases hd : decode v with
    | error d => exact issueWord_illegal hd (Bool.eq_false_iff.2 hb)
    | ok i =>
      rw [issueWord, hd]
      exact (exec_of_hostTurn i rfl).trans (congrArg _ (if_neg hb))

/-! ### O6, O17: the engine's event -/

/-- Settles O6: the pending command's step is its completion, which `exec` carries out too. -/
theorem stepCompletesPending : Obligations.StepCompletesPending := by
  intro s h
  refine ⟨fun i hb hi => ?_, step_of_engineIdle h⟩
  have hat : (s.take .engine).AtCompletion i := ⟨rfl, hb, hi⟩
  rw [step_of_completion h hb hi, exec_of_atCompletion hat]

/-- Settles O17: no pseudocode writes ERR, ERRCODE or IE, and a completion touches the engine alone. -/
theorem completionNeverFails : Obligations.CompletionNeverFails := by
  intro s i h hb hi
  obtain ⟨hie, -, -, herr, hcode, -⟩ := effectOf_frame i s.toEngine
  exact ⟨_, step_of_completion h hb hi, herr, hcode, hie, rfl, rfl, rfl, rfl, rfl, rfl⟩

/-! ### O10, O16: NOP and CLEAR -/

/-- Settles O10: the pseudocode is empty, so only the lifecycle is left (R107). -/
theorem nopCompletes : Obligations.NopCompletes :=
  fun _ h => exec_of_atCompletion h

/-- Settles O16: the pseudocode writes constant files (R108). -/
theorem clearCompletes : Obligations.ClearCompletes := by
  intro s h
  have hzero {n : Nat} (j : Fin n) : (Vector.replicate n (0 : Word))[j] = 0 :=
    Vector.getElem_replicate j.isLt
  exact ⟨_, exec_of_atCompletion h, hzero, fun j => ⟨hzero j, hzero j⟩, rfl⟩

end Sys2Proof.Machine
end

section
/-! PROOF. The host framing as pure functions (44_host_framing.md): a byte sequence of whole blocks and
its list of blocks say the same, the padding brings every plaintext to whole blocks, and the statements
about `encrypt` and `decrypt` follow from what `unpad` does at the end of a decrypted body. -/

namespace Sys2Proof.Machine

/-! ### Byte sequences of whole blocks (R13, R152) -/

@[simp] theorem flatMap_blockBytes_length (bs : List Block) :
    (bs.flatMap blockBytes).length = 256 * bs.length := by
  induction bs with
  | nil => rfl
  | cons b bs ih =>
    rw [List.flatMap_cons, List.length_append, blockBytes_length, ih, List.length_cons]
    omega

@[simp] theorem blocksOf_length (s : List Byte) : (blocksOf s).length = s.length / 256 := by
  simp [blocksOf]

theorem blockAt_zero_append (b : Block) (s : List Byte) : blockAt (blockBytes b ++ s) 0 = b := by
  rw [blockAt, Nat.mul_zero, List.drop_zero, List.take_left' (blockBytes_length b),
    blockOfBytes_blockBytes]

theorem blockAt_succ_append (b : Block) (s : List Byte) (k : Nat) :
    blockAt (blockBytes b ++ s) (k + 1) = blockAt s k := by
  have hoffset : 256 * (k + 1) = (blockBytes b).length + 256 * k := by
    rw [blockBytes_length]; omega
  rw [blockAt, hoffset, List.drop_length_add_append, blockAt]

theorem blocksOf_append (b : Block) (s : List Byte) :
    blocksOf (blockBytes b ++ s) = b :: blocksOf s := by
  have hcount : (blockBytes b ++ s).length / 256 = s.length / 256 + 1 := by
    rw [List.length_append, blockBytes_length]; omega
  rw [blocksOf, hcount, List.range_succ_eq_map, List.map_cons, blockAt_zero_append, List.map_map]
  exact congrArg _ (List.map_congr_left fun k _ => blockAt_succ_append b s k)

theorem blocksOf_flatMap_blockBytes (bs : List Block) : blocksOf (bs.flatMap blockBytes) = bs := by
  induction bs with
  | nil => rfl
  | cons b bs ih => rw [List.flatMap_cons, blocksOf_append, ih]

theorem exists_blocks_of_length (n : Nat) (s : List Byte) (h : s.length = 256 * n) :
    ∃ bs : List Block, bs.flatMap blockBytes = s := by
  induction n generalizing s with
  | zero => exact ⟨[], (List.eq_nil_of_length_eq_zero h).symm⟩
  | succ n ih =>
    obtain ⟨bs, hbs⟩ := ih (s.drop 256) (by rw [List.length_drop]; omega)
    have hfirst : (s.take 256).length = 256 := by rw [List.length_take]; omega
    refine ⟨blockOfBytes (s.take 256) :: bs, ?_⟩
    rw [List.flatMap_cons, blockBytes_blockOfBytes hfirst, hbs, List.take_append_drop]

/-- A sequence of whole blocks is its blocks' bytes. -/
theorem flatMap_blockBytes_blocksOf {s : List Byte} (h : s.length % 256 = 0) :
    (blocksOf s).flatMap blockBytes = s := by
  obtain ⟨bs, rfl⟩ := exists_blocks_of_length (s.length / 256) s (by omega)
  rw [blocksOf_flatMap_blockBytes]

@[simp] theorem encChain_length (perm : Block → Block) (m : Block) (ps : List Block) :
    (encChain perm m ps).length = ps.length := by
  induction ps generalizing m with
  | nil => rfl
  | cons p ps ih => simp only [encChain, List.length_cons, ih]

@[simp] theorem decChain_length (unperm : Block → Block) (m : Block) (cs : List Block) :
    (decChain unperm m cs).length = cs.length := by
  simp [decChain_eq_zipWith]

/-! ### The padding (R110, R111) -/

theorem padLen_bounds (len : Nat) : 1 ≤ padLen len ∧ padLen len ≤ 256 := by
  simp only [padLen]; omega

/-- The padding, never empty, fills the last block up (R113). -/
theorem length_add_padLen (len : Nat) : len + padLen len = 256 * (len / 256 + 1) := by
  simp only [padLen]; omega

@[simp] theorem paddedBuffer_length (p : List Byte) :
    (paddedBuffer p).length = p.length + padLen p.length := by
  have := padLen_bounds p.length
  simp only [paddedBuffer, List.length_append, List.length_replicate, List.length_singleton]
  omega

theorem paddedBuffer_getLastD (p : List Byte) : (paddedBuffer p).getLastD 0 = padMarker p.length := by
  rw [paddedBuffer, ← List.append_assoc, List.getLastD_concat]

theorem take_paddedBuffer (p : List Byte) : (paddedBuffer p).take p.length = p :=
  List.take_left' rfl

theorem padMarker_toNat (len : Nat) : (padMarker len).toNat = padLen len % 256 := by
  simp [padMarker]

theorem padLen_of_dvd {len : Nat} (h : len % 256 = 0) : padLen len = 256 := by
  rw [padLen, h]

/-- The marker is 0 exactly where a whole block is added (R111). -/
theorem padMarker_eq_zero_iff (len : Nat) : padMarker len = 0 ↔ len % 256 = 0 := by
  have hzero : (0 : Byte).toNat = 0 := rfl
  rw [← BitVec.toNat_inj, padMarker_toNat, hzero, padLen]
  omega

/-- Where a whole block is added, the pad and its marker are 256 zero bytes (R111, R122). -/
theorem paddedBuffer_of_dvd {p : List Byte} (h : p.length % 256 = 0) :
    paddedBuffer p = p ++ List.replicate 256 0 := by
  rw [paddedBuffer, padLen_of_dvd h, (padMarker_eq_zero_iff _).2 h, ← List.replicate_succ']

/-! ### The checks of `encrypt` (R114, R115, R124) -/

section EncryptCheck
variable {policy : PadPolicy} {p iv : List Byte}

theorem encryptCheck_of_ivLength (h : iv.length ≠ 32) :
    encryptCheck policy p iv = .error .invalidIvLength := if_pos h

theorem encryptCheck_of_fullBlock (hiv : iv.length = 32)
    (h : policy = .reject ∧ p.length % 256 = 0) :
    encryptCheck policy p iv = .error .paddingOverflow := by
  rw [encryptCheck, if_neg (not_not.2 hiv), if_pos h]

theorem encryptCheck_ok (hiv : iv.length = 32) (h : ¬(policy = .reject ∧ p.length % 256 = 0)) :
    encryptCheck policy p iv = .ok () := by
  rw [encryptCheck, if_neg (not_not.2 hiv), if_neg h]

/-- A failed check is what the call returns, and nothing is presented to the engine. -/
theorem encrypt_of_check_error {e : HostError} (h : encryptCheck policy p iv = .error e)
    (perm : Block → Block) :
    encrypt policy perm p iv = .error e ∧ encryptCall policy p iv = .error e := by
  simp only [encrypt, encryptCall, h, and_self]

theorem encrypt_of_check_ok (h : encryptCheck policy p iv = .ok ()) (perm : Block → Block) :
    encrypt policy perm p iv = .ok (encFrame perm p iv) ∧
      encryptCall policy p iv = .ok (encryptProgram p iv) := by
  simp only [encrypt, encryptCall, h, and_self]

end EncryptCheck

/-- Settles O57: the checks of R114 and R122 decide, before the engine is touched. -/
theorem encryptFailsOnlyAsStated : Obligations.EncryptFailsOnlyAsStated :=
  fun perm _ _ _ =>
    ⟨fun hiv => encrypt_of_check_error (encryptCheck_of_ivLength hiv) perm,
     fun hiv hpolicy hfull =>
       encrypt_of_check_error (encryptCheck_of_fullBlock hiv ⟨hpolicy, hfull⟩) perm,
     fun hiv hfits => encrypt_of_check_ok (encryptCheck_ok hiv hfits) perm⟩

/-! ### O50: the length of the frame -/

theorem encFrame_length (perm : Block → Block) (p : List Byte) {iv : List Byte}
    (hiv : iv.length = 32) : (encFrame perm p iv).length = 32 + p.length + padLen p.length := by
  have hlen := length_add_padLen p.length
  simp only [encFrame, List.length_append, flatMap_blockBytes_length, encChain_length,
    blocksOf_length, paddedBuffer_length, hiv]
  omega

/-- Settles O50: the padding makes the buffer `L div 256 + 1` blocks, and each gives 256 bytes. -/
theorem frameLength : Obligations.FrameLength := by
  intro perm p iv hiv
  have hlen := length_add_padLen p.length
  refine ⟨encFrame_length perm p hiv, by rw [blocksOf_length, paddedBuffer_length], by omega, ?_⟩
  intro policy hpolicy
  have hfits : ¬(policy = .reject ∧ p.length % 256 = 0) := fun ⟨hr, hfull⟩ => hpolicy hr hfull
  exact (encrypt_of_check_ok (encryptCheck_ok hiv hfits) perm).1

/-! ### `unpad` (R119, R122) -/

theorem padLenOfMarker_reject_zero : padLenOfMarker .reject 0 = .error .paddingOverflow := rfl

/-- The only marker without a pad length is 0 under `reject`. -/
theorem exists_padLenOfMarker {policy : PadPolicy} {m : Byte} (h : ¬(policy = .reject ∧ m = 0)) :
    ∃ n, padLenOfMarker policy m = .ok n ∧ n ≤ 256 := by
  have hm := m.isLt
  cases policy with
  | compat => exact ⟨_, rfl, hm.le⟩
  | reject => exact ⟨m.toNat, if_neg fun h0 => h ⟨rfl, h0⟩, hm.le⟩
  | zeroIs256 =>
    refine ⟨_, rfl, ?_⟩
    split
    · exact le_rfl
    · exact hm.le

/-- A marker other than 0 means the same under every policy. -/
theorem padLenOfMarker_of_ne_zero (policy : PadPolicy) {m : Byte} (h : m ≠ 0) :
    padLenOfMarker policy m = .ok m.toNat := by
  cases policy with
  | compat => rfl
  | reject => exact if_neg h
  | zeroIs256 => exact congrArg _ (if_neg h)

theorem unpad_of_error {policy : PadPolicy} {out : List Byte} {e : HostError}
    (h : padLenOfMarker policy (out.getLastD 0) = .error e) : unpad policy out = .error e := by
  rw [unpad, h]

/-- The bytes of the pad are cut off, whatever they are (R120). -/
theorem unpad_of_ok {policy : PadPolicy} {out : List Byte} {n : Nat}
    (h : padLenOfMarker policy (out.getLastD 0) = .ok n) (hn : n ≤ out.length) :
    unpad policy out = .ok (out.take (out.length - n)) := by
  rw [unpad, h]
  exact if_neg (Nat.not_lt.2 hn)

/-- Where the marker is read as the pad length, `unpad` undoes the padding. -/
theorem unpad_paddedBuffer {policy : PadPolicy} {p : List Byte}
    (h : padLenOfMarker policy (padMarker p.length) = .ok (padLen p.length)) :
    unpad policy (paddedBuffer p) = .ok p := by
  rw [← paddedBuffer_getLastD] at h
  rw [unpad_of_ok h (by rw [paddedBuffer_length]; omega), paddedBuffer_length, Nat.add_sub_cancel,
    take_paddedBuffer]

/-- A last block that is not full is padded and unpadded under every policy. -/
theorem unpad_paddedBuffer_of_not_dvd (policy : PadPolicy) {p : List Byte}
    (h : p.length % 256 ≠ 0) : unpad policy (paddedBuffer p) = .ok p := by
  have hmarker : (padMarker p.length).toNat = padLen p.length := by
    rw [padMarker_toNat, Nat.mod_eq_of_lt]
    simp only [padLen]; omega
  apply unpad_paddedBuffer
  rw [padLenOfMarker_of_ne_zero policy (mt (padMarker_eq_zero_iff _).1 h), hmarker]

/-- `zero_is_256` reads the marker of a whole block as it was meant (R122). -/
theorem unpad_paddedBuffer_zeroIs256 (p : List Byte) :
    unpad .zeroIs256 (paddedBuffer p) = .ok p := by
  by_cases h : p.length % 256 = 0
  · apply unpad_paddedBuffer
    rw [(padMarker_eq_zero_iff _).2 h, padLen_of_dvd h]
    rfl
  · exact unpad_paddedBuffer_of_not_dvd _ h

/-- `compat` cuts nothing off at a marker of 0 (R122). -/
theorem unpad_paddedBuffer_compat_of_dvd {p : List Byte} (h : p.length % 256 = 0) :
    unpad .compat (paddedBuffer p) = .ok (paddedBuffer p) := by
  have hzero : padLenOfMarker .compat ((paddedBuffer p).getLastD 0) = .ok 0 := by
    rw [paddedBuffer_getLastD, (padMarker_eq_zero_iff _).2 h]
    rfl
  rw [unpad_of_ok hzero (Nat.zero_le _), Nat.sub_zero, List.take_length]

/-! ### O52: the failures of `decrypt` -/

theorem decrypt_of_malformed {c : List Byte} (h : c.length < 288 ∨ (c.length - 32) % 256 ≠ 0)
    (policy : PadPolicy) (unperm : Block → Block) :
    decrypt policy unperm c = .error .malformedCiphertext := by
  rw [decrypt, decryptCheck, if_pos h]

/-- A frame of a legal length is decrypted and unpadded (R117, R118). -/
theorem decrypt_eq_unpad {c : List Byte} (hlen : 288 ≤ c.length) (hblocks : (c.length - 32) % 256 = 0)
    (policy : PadPolicy) (unperm : Block → Block) :
    decrypt policy unperm c = unpad policy (decBody unperm c) := by
  have hlegal : ¬(c.length < 32 + 256 ∨ (c.length - 32) % 256 ≠ 0) := by omega
  rw [decrypt, decryptCheck, if_neg hlegal]

theorem decBody_length (unperm : Block → Block) (c : List Byte) :
    (decBody unperm c).length = 256 * ((c.length - 32) / 256) := by
  rw [decBody, flatMap_blockBytes_length, decChain_length, blocksOf_length, List.length_drop]

/-- Settles O52: a decrypted body has at least 256 bytes, and no pad length is more. -/
theorem decryptFailsOnlyAsStated : Obligations.DecryptFailsOnlyAsStated := by
  intro unperm policy c
  refine ⟨fun h => decrypt_of_malformed h policy unperm, fun hlen hblocks => ?_⟩
  rw [decrypt_eq_unpad hlen hblocks]
  by_cases hreject : policy = .reject ∧ (decBody unperm c).getLastD 0 = 0
  · obtain ⟨rfl, hzero⟩ := hreject
    exact .inl ⟨rfl, hzero, unpad_of_error (by rw [hzero, padLenOfMarker_reject_zero])⟩
  · obtain ⟨n, hn, hle⟩ := exists_padLenOfMarker hreject
    have hfits : n ≤ (decBody unperm c).length := by rw [decBody_length]; omega
    exact .inr ⟨hreject, _, unpad_of_ok hn hfits, _, List.take_append_drop _ _⟩

/-! ### O51: the round trip -/

/-- Decrypting a frame gives back the padded buffer (R98, R111). -/
theorem decBody_encFrame (π : Equiv.Perm Block) (p : List Byte) {iv : List Byte}
    (hiv : iv.length = 32) : decBody π.symm (encFrame π p iv) = paddedBuffer p := by
  have hwhole : (paddedBuffer p).length % 256 = 0 := by
    rw [paddedBuffer_length, length_add_padLen, Nat.mul_mod_right]
  rw [decBody, encFrame, List.take_left' hiv, List.drop_left' hiv, blocksOf_flatMap_blockBytes,
    chainRoundTrip, flatMap_blockBytes_blocksOf hwhole]

/-- What `encrypt` accepts comes back as its padded buffer, unpadded under the same policy. -/
theorem encrypt_bind_decrypt {policy : PadPolicy} {p iv : List Byte} (π : Equiv.Perm Block)
    (hiv : iv.length = 32) (hfits : ¬(policy = .reject ∧ p.length % 256 = 0)) :
    (encrypt policy π p iv).bind (decrypt policy π.symm) = unpad policy (paddedBuffer p) := by
  have hframe := encFrame_length π p hiv
  have hpad := length_add_padLen p.length
  rw [(encrypt_of_check_ok (encryptCheck_ok hiv hfits) π).1, Except.bind,
    decrypt_eq_unpad (by omega) (by omega), decBody_encFrame π p hiv]

/-- Settles O51: each policy unpads the buffer that comes back. -/
theorem encryptDecryptRoundTrip : Obligations.EncryptDecryptRoundTrip := by
  intro π p iv hiv
  refine ⟨?_, ?_, fun hfull => ?_, fun hpart => ?_⟩
  · rw [encrypt_bind_decrypt π hiv (by simp), unpad_paddedBuffer_zeroIs256]
  · rw [encrypt_bind_decrypt π hiv (by simp)]
    split
    next hfull => rw [unpad_paddedBuffer_compat_of_dvd hfull, paddedBuffer_of_dvd hfull]
    next hpart => exact unpad_paddedBuffer_of_not_dvd _ hpart
  · exact (encrypt_of_check_error (encryptCheck_of_fullBlock hiv ⟨rfl, hfull⟩) π).1
  · rw [encrypt_bind_decrypt π hiv fun h => hpart h.2, unpad_paddedBuffer_of_not_dvd _ hpart]

end Sys2Proof.Machine
end

section
/-! PROOF. The host's programs (44_host_framing.md): the programs of `encrypt` and `decrypt` load an IV,
expand it and take the blocks one by one through one command (R115, R118), and the programs of R126
save and restore the chaining state. Each part is stated as what it does to an idle engine. -/

namespace Sys2Proof.Machine

/-! ### Loading the IV (R75) -/

theorem offset_iv_aligned (i : Fin 8) : (Reg.offset (.iv i)).toNat % 4 = 0 := by
  simp only [Reg.offset, BitVec.toNat_ofNat]
  omega

/-- A write to an IV word (R20, R47). -/
theorem performs_wr_iv {e : Engine} (hb : e.busy = false) (i : Fin 8) (v : Word) :
    Performs e [wr (Reg.offset (.iv i)) v] { e with iv := e.iv.set i v } [] := by
  have hwr := performs_wr (offset_iv_aligned i) (by rw [regAt_offset_iv]; nofun) v e
  simpa [Engine.writeReg, hb] using hwr

/-- The IV file whose first `k` words are those of `v`, the others those of `old`. -/
def ivLoaded (v old : IvFile) (k : Nat) : IvFile :=
  tabulate 8 fun i => if i.val < k then v[i] else old[i]

theorem ivLoaded_getElem (v old : IvFile) (k : Nat) {i : Nat} (hi : i < 8) :
    (ivLoaded v old k)[i] = if i < k then v[i] else old[i] :=
  tabulate_getElem 8 _ i hi

theorem ivLoaded_zero (v old : IvFile) : ivLoaded v old 0 = old := by
  ext i hi : 1
  rw [ivLoaded_getElem, if_neg (Nat.not_lt_zero i)]

theorem ivLoaded_eight (v old : IvFile) : ivLoaded v old 8 = v := by
  ext i hi : 1
  rw [ivLoaded_getElem, if_pos hi]

theorem ivLoaded_succ (v old : IvFile) {k : Nat} (hk : k < 8) :
    (ivLoaded v old k).set k v[k] = ivLoaded v old (k + 1) := by
  ext i hi : 1
  rw [Vector.getElem_set, ivLoaded_getElem, ivLoaded_getElem]
  by_cases h : k = i
  · subst h; simp
  · have hlt : i < k + 1 ↔ i < k := by omega
    simp only [h, hlt, if_false]

/-- The first `k` writes of `LDIV`. -/
theorem performs_ldiv_first (iv : List Byte) {e : Engine} (hb : e.busy = false) {k : Nat}
    (hk : k ≤ 8) :
    Performs e ((List.range k).map fun i => wr (BitVec.ofNat 10 (0x020 + 4 * i)) (wordAt iv i))
      { e with iv := ivLoaded (ivFileOfBytes iv) e.iv k } [] := by
  induction k with
  | zero => rw [ivLoaded_zero]; exact .nil e
  | succ k ih =>
    have hword : wordAt iv k = (ivFileOfBytes iv)[k] := by
      rw [ivFileOfBytes, tabulate_getElem]
    have hwr := performs_wr_iv (e := { e with iv := ivLoaded (ivFileOfBytes iv) e.iv k }) hb ⟨k, hk⟩
      (wordAt iv k)
    rw [List.range_succ, List.map_append, ← ivLoaded_succ _ _ hk, ← hword]
    exact (ih (Nat.le_of_succ_le hk)).append hwr

/-- An IV is loaded to the IV file. -/
theorem performs_ldiv (iv : List Byte) {e : Engine} (hb : e.busy = false) :
    Performs e (ldiv iv) { e with iv := ivFileOfBytes iv } [] := by
  have hwr := performs_ldiv_first iv hb le_rfl
  rwa [ivLoaded_eight] at hwr

/-! ### O53, O54: a message block by block -/

/-- Command `i` takes a list of blocks one by one from mask to mask as `chain` says (R98). -/
def ChainedBy (i : Instr) (chain : Block → List Block → List Block) : Prop :=
  (∀ m, chain m [] = []) ∧
  ∀ (e : Engine) (bs : List Block), chain e.mask (e.data :: bs) =
    (effectOf i e).data :: chain (effectOf i e).mask bs

theorem chainedBy_encblk : ChainedBy .encblk (encChain Config.perm) :=
  ⟨fun _ => rfl, fun _ _ => rfl⟩

theorem chainedBy_decblk : ChainedBy .decblk (decChain Config.unperm) :=
  ⟨fun _ => rfl, fun _ _ => rfl⟩

/-- A command that does not take away the chaining state gives the chain of the blocks as answers. -/
theorem performs_blocks {i : Instr} {chain : Block → List Block → List Block}
    (hchain : ChainedBy i chain) (hi : i ≠ .clear) (bs : List Block) {e : Engine}
    (hb : e.busy = false) (hmask : e.maskValid = true) :
    ∃ e', Performs e (bs.flatMap (blockProgram i)) e'
      ((chain e.mask bs).flatMap fun b => b.toList) := by
  obtain ⟨hnil, hcons⟩ := id hchain
  induction bs generalizing e with
  | nil => exact ⟨e, by rw [hnil]; exact .nil e⟩
  | cons b bs ih =>
    have hkeeps : (Engine.completed i { e with data := b }).maskValid = true := by
      by_contra hlost
      exact hi ((effectOf_maskValid i { e with data := b }).2 hmask (Bool.eq_false_iff.2 hlost))
    obtain ⟨e', hrest⟩ := ih rfl hkeeps
    refine ⟨e', ?_⟩
    rw [hcons { e with data := b } bs]
    exact (performs_blockProgram i b hb fun _ => hmask).append hrest

/-- A message program: the IV is loaded and expanded, and the chain starts from the mask that makes
(R115, R118). -/
theorem performs_message {i : Instr} {chain : Block → List Block → List Block}
    (hchain : ChainedBy i chain) (hi : i ≠ .clear) (iv : List Byte) (bs : List Block) {e : Engine}
    (hb : e.busy = false) :
    ∃ e', Performs e (ldiv iv ++ run .keysched ++ bs.flatMap (blockProgram i)) e'
      ((chain (ksw (ivFileOfBytes iv)) bs).flatMap fun b => b.toList) := by
  have hkey := (performs_ldiv iv hb).append (performs_run .keysched nofun)
  obtain ⟨e', hblocks⟩ := performs_blocks hchain hi bs
    (e := Engine.completed .keysched { e with iv := ivFileOfBytes iv }) rfl rfl
  exact ⟨e', hkey.append hblocks⟩

/-- The bytes of the words of blocks are the bytes of the blocks (R75 `STBLK`). -/
theorem wordsBytes_flatMap_toList (bs : List Block) :
    wordsBytes (bs.flatMap fun b => b.toList) = bs.flatMap blockBytes :=
  List.flatMap_assoc

/-- On an idle engine a message program runs to its end, and its answers are the bytes of the chain. -/
theorem reaches_final_of_message {i : Instr} {chain : Block → List Block → List Block}
    (hchain : ChainedBy i chain) (hi : i ≠ .clear) {iv : List Byte} {bs : List Block} {s : State}
    (hidle : s.Idle) (hin : s.inputs = ldiv iv ++ run .keysched ++ bs.flatMap (blockProgram i))
    (hr : s.received = []) :
    ∃ t, Reaches s t ∧ t.Final ∧
      answerBytes t.received = (chain (ksw (ivFileOfBytes iv)) bs).flatMap blockBytes := by
  obtain ⟨e', hprogram⟩ := performs_message hchain hi iv bs hidle.1
  rw [← hin] at hprogram
  obtain ⟨t, hst, hfinal, -, hw⟩ := hprogram.reaches_final hidle hr
  refine ⟨t, hst, hfinal, ?_⟩
  calc answerBytes t.received
      = wordsBytes (answerWords t.received) := rfl
    _ = wordsBytes ((chain (ksw (ivFileOfBytes iv)) bs).flatMap fun b => b.toList) := by rw [hw]
    _ = (chain (ksw (ivFileOfBytes iv)) bs).flatMap blockBytes := wordsBytes_flatMap_toList _

/-- Settles O53: ENCBLK takes the blocks of the padded buffer through the chain of R116. -/
theorem encryptProgramComputesFrame : Obligations.EncryptProgramComputesFrame := by
  intro p iv s _ hidle hin hr
  obtain ⟨t, hst, hfinal, hbytes⟩ := reaches_final_of_message chainedBy_encblk nofun hidle hin hr
  exact ⟨t, hst, hfinal, congrArg (iv ++ ·) hbytes⟩

/-- Settles O54: DECBLK takes the blocks of the frame through the chain of R118, and the host unpads
the same body. -/
theorem decryptProgramComputesPlaintext : Obligations.DecryptProgramComputesPlaintext := by
  intro policy c s hlen hblocks hidle hin hr
  obtain ⟨t, hst, hfinal, hbytes⟩ := reaches_final_of_message chainedBy_decblk nofun hidle hin hr
  refine ⟨t, hst, hfinal, ?_⟩
  rw [decrypt_eq_unpad hlen hblocks]
  exact congrArg (unpad policy) hbytes

/-! ### O55: the chaining state saved and restored (R126) -/

theorem offset_mask_aligned (i : Fin 64) : (Reg.offset (.mask i)).toNat % 4 = 0 := by
  simp only [Reg.offset, BitVec.toNat_ofNat]
  omega

/-- A read of a MASK word (R21, R46). -/
theorem performs_rd_mask (e : Engine) (i : Fin 64) :
    Performs e [rd (Reg.offset (.mask i))] e [e.mask[i]] := by
  simpa [Engine.readReg] using performs_rd (offset_mask_aligned i) e

/-- Inputs that leave the engine as it is, one after the other. -/
theorem performs_map {α : Type} {input : α → Input} {answer : α → Word} {e : Engine}
    (h : ∀ a, Performs e [input a] e [answer a]) (as : List α) :
    Performs e (as.map input) e (as.map answer) := by
  induction as with
  | nil => exact .nil e
  | cons a as ih => exact (h a).append ih

/-- MASK is read in order (R75). -/
theorem performs_rdmask (e : Engine) : Performs e rdmask e e.mask.toList := by
  have hlanes : (List.finRange 64).map (fun i => e.mask[i]) = e.mask.toList := by
    apply List.ext_getElem <;> simp
  exact hlanes ▸ performs_map (performs_rd_mask e) (List.finRange 64)

/-- WAIT is passed at once on an idle engine (R75). -/
theorem performs_wait (e : Engine) : Performs e [.wait] e [] := by
  refine performs_of_step fun s rest words hnext hs => ?_
  obtain ⟨rfl, ⟨hb, hpend, hl⟩, -, hw⟩ := hs
  refine ⟨s.afterInput rest, ?_, rfl, ⟨hb, hpend, hl⟩, rfl, by rw [List.append_nil]; exact hw⟩
  rw [step_of_wait hnext, State.waitStep_eq, if_neg (by simp [hb])]

/-- Behind a WAIT the engine is idle, whether a command was pending or not, and the host has read
nothing more (R75, R155). -/
theorem reaches_idle_of_wait {s : State} {rest : List Input} (hinv : s.Inv)
    (hl : s.powerLost = false) (hin : s.inputs = .wait :: rest) :
    ∃ t e, Reaches s t ∧ t.IdleWith e rest (answerWords s.received) := by
  have hiff := (hinv hl).busy_iff_pending
  cases hp : s.pending with
  | none =>
    have hb : s.busy = false := Bool.eq_false_iff.2 fun hbusy => hiff.1 hbusy hp
    obtain ⟨t, hst, ht⟩ := performs_wait s.toEngine s rest _ ⟨rfl, ⟨hb, hp, hl⟩, hin, rfl⟩
    exact ⟨t, s.toEngine, hst, by rwa [List.append_nil] at ht⟩
  | some i =>
    have hb : s.busy = true := hiff.2 (by rw [hp]; nofun)
    obtain ⟨order, turn, hst⟩ := reaches_wait_end s rest i hb hp hl hin
    exact ⟨_, _, hst, rfl, ⟨rfl, rfl, hl⟩, rfl, rfl⟩

/-- A state in which nothing is left to present is the end of the run (R157). -/
theorem State.IdleWith.final {s : State} {e : Engine} {words : List Word}
    (h : s.IdleWith e [] words) : s.Final := by
  obtain ⟨-, ⟨hb, -, hl⟩, hin, -⟩ := h
  exact ⟨hin, hb, hl⟩

theorem saveProgram_reads_mask {s : State} (hinv : s.Inv) (hl : s.powerLost = false)
    (hin : s.inputs = saveProgram) (hr : s.received = []) :
    ∃ t, Reaches s t ∧ t.Final ∧ answerWords t.received = t.mask.toList := by
  obtain ⟨t, e, hst, ht⟩ := reaches_idle_of_wait hinv hl hin
  rw [hr, ← List.append_nil rdmask] at ht
  obtain ⟨u, htu, hu⟩ := performs_rdmask e t [] _ ht
  obtain ⟨he, -, -, hw⟩ := id hu
  exact ⟨u, hst.trans htu, hu.final, by rw [hw, he]; rfl⟩

theorem restoreProgram_sets_mask (m : Block) {s : State} (hidle : s.Idle)
    (hin : s.inputs = restoreProgram m) :
    ∃ t, Reaches s t ∧ t.Final ∧ t.mask = m ∧ t.maskValid = true ∧ t.iv = s.iv := by
  obtain ⟨t, hst, ht⟩ := performs_restoreProgram m hidle.1 s [] _
    ⟨rfl, hidle, by rw [List.append_nil, hin], rfl⟩
  obtain ⟨he, -, -, -⟩ := id ht
  exact ⟨t, hst, ht.final, congrArg Engine.mask he, congrArg Engine.maskValid he,
    by rw [he]; rfl⟩

/-- Settles O55: WAIT lets a pending command end before the reads, and SETMASK takes MASK from DATA. -/
theorem chainingStateSavesAndRestores : Obligations.ChainingStateSavesAndRestores :=
  ⟨fun _ hinv hl hin hr => saveProgram_reads_mask hinv hl hin hr,
   fun m _ hidle hin => restoreProgram_sets_mask m hidle hin⟩

end Sys2Proof.Machine
end

section
/-! PROOF. Exceptions (60_exceptions.md): recording an error (R129), the events of an engine without
power (R143, U16), and two runs that differ in the recorded error alone (R131). -/

namespace Sys2Proof.Machine

/-! ### O26: recording an error -/

theorem Engine.cmdError_of_noError {e : Engine} (code : BitVec 4) (h : e.err = false) :
    e.cmdError code = { e with err := true, errcode := code } := by
  simp [Engine.cmdError, h]

theorem Engine.cmdError_of_error {e : Engine} (code : BitVec 4) (h : e.err = true) :
    e.cmdError code = e := by
  rw [Engine.cmdError, if_pos h, ← h]

/-- Settles O26, one lemma for each value of ERR. -/
theorem firstErrorCodeIsKept : Obligations.FirstErrorCodeIsKept :=
  fun code _ => ⟨Engine.cmdError_of_noError code, Engine.cmdError_of_error code⟩

/-! ### O32: the events of an engine without power -/

section Events
variable {s : State} {rest : List Input}

/-- The platform removes the power (R143). -/
theorem step_of_powerLoss (hm : s.mover = .host) (hi : s.inputs = .powerLoss :: rest) :
    step s = .next (s.afterInput rest).losePower := by
  simp [step, hm, hostStep, hi, present, State.afterInput]

/-- A host statement that reaches a stuck engine (U16). -/
theorem step_of_stuckStatement {inp : Input} (hl : s.powerLost = true) (hm : s.mover = .host)
    (hi : s.inputs = inp :: rest) (hinp : inp = .wait ∨ ∃ a o, inp = .access a o) :
    step s = .next (s.afterInput rest).unanswered := by
  rcases hinp with rfl | ⟨a, o, rfl⟩ <;>
    simp [step, hm, hostStep, hi, present, hl, State.afterInput]

/-- The host's event with nothing presented (R145). -/
theorem step_of_noInput (hm : s.mover = .host) (hi : s.inputs = []) :
    step s = .next (s.take .host).idle := by
  simp [step, hm, hostStep, hi]

/-- The engine's event where no completion is enabled (R103, U16). -/
theorem step_of_noCompletion (hm : s.mover = .engine)
    (hoff : s.powerLost = true ∨ s.busy = false ∨ s.pending = none) :
    step s = .next (s.take .engine).idle := by
  cases hl : s.powerLost with
  | true => simp [step, hm, engineStep, hl]
  | false =>
    rcases hoff with hlost | hb | hnone
    · exact absurd (hl.symm.trans hlost) (by decide)
    · simp [step_of_engineIdle ⟨hm, hl⟩ hb, hl]
    · simp [step, hm, engineStep, hl, hnone]

/-- An event without a host statement leaves a stuck engine stuck (U16). -/
theorem step_of_stuckIdle (hl : s.powerLost = true) (he : s.mover = .engine ∨ s.inputs = []) :
    step s = .next (s.take s.mover).withoutState := by
  cases hm : s.mover with
  | engine => simp [step_of_noCompletion hm (.inl hl), hl]
  | host =>
    have hi : s.inputs = [] := he.resolve_left (by simp [hm])
    simp [step_of_noInput hm hi, hl]

/-- Power comes back only by a reset edge at the host's event (R143, R144). -/
theorem resetEdge_of_power_back {t : State} (hl : s.powerLost = true) (h : step s = .next t)
    (hp : t.powerLost = false) : s.AtResetEdge ∧ t.toEngine = Engine.reset := by
  rcases step_without_power hl with ⟨p, rest, hm, hi, hs⟩ | ⟨u, hs, hu⟩ <;> rw [hs] at h <;> cases h
  · exact ⟨⟨hm, p, rest, hi⟩, State.resetEdge_toEngine p _⟩
  · exact absurd (hu.symm.trans hp) (by decide)

end Events

/-- Settles O32, one lemma for each kind of event. -/
theorem powerLossIsStuckUntilReset : Obligations.PowerLossIsStuckUntilReset := by
  refine ⟨fun s rest hm hi => step_of_powerLoss hm hi,
    fun s inp rest hl hm hi hinp => step_of_stuckStatement hl hm hi hinp,
    fun s hl he => step_of_stuckIdle hl he, fun s t hl h hp => ?_⟩
  obtain ⟨⟨hm, hedge⟩, ht⟩ := resetEdge_of_power_back hl h hp
  exact ⟨hm, ht, hedge⟩

/-! ### O29: two runs that differ in the recorded error

`withRecord` gives the second run its ERR and ERRCODE. `eraseErrors` is what the two runs share: all of
the state but ERR, ERRCODE and the answers, which show them by a read of STATUS. -/

/-- The engine with another ERR and ERRCODE (R31, R33). -/
def Engine.withRecord (b : Bool) (c : BitVec 4) (e : Engine) : Engine :=
  { e with err := b, errcode := c }

/-- The machine with another ERR and ERRCODE. -/
def State.withRecord (b : Bool) (c : BitVec 4) (s : State) : State :=
  { s with toEngine := s.toEngine.withRecord b c }

/-- The state as it is seen without ERR, ERRCODE and the answers. -/
def State.eraseErrors (s : State) : State := { s.withRecord false 0 with received := [] }

/-- Equal views are states that differ in ERR, ERRCODE and the answers alone. -/
theorem State.eq_of_eraseErrors {t u : State} (h : u.eraseErrors = t.eraseErrors) :
    { u with err := t.err, errcode := t.errcode, received := t.received } = t :=
  congrArg (fun v : State =>
    { v with err := t.err, errcode := t.errcode, received := t.received }) h

section Views
variable (b : Bool) (c : BitVec 4) (s : State)

/-- The pseudocodes neither read nor write the recorded error (R104, R131). -/
theorem effectOf_withRecord (i : Instr) (e : Engine) :
    effectOf i (e.withRecord b c) = (effectOf i e).withRecord b c := by
  cases i <;> rfl

/-- A write looks at BUSY alone, and a refused one leaves no trace but the error (R47, R52). -/
theorem Engine.writeReg_withRecord (r : Reg) (v : Word) (e : Engine) :
    ((e.withRecord b c).writeReg r v).withRecord false 0 = (e.writeReg r v).withRecord false 0 := by
  cases r with
  | iv i | data i => simp only [Engine.writeReg, apply_ite (Engine.withRecord false 0)]; rfl
  | id | ctrl | status | cmd | mask | reserved => rfl

theorem State.eraseErrors_regWrite (r : Reg) (v : Word) :
    ((s.withRecord b c).regWrite r v).eraseErrors = (s.regWrite r v).eraseErrors :=
  congrArg (fun e => ({ s with toEngine := e, received := [] } : State))
    (Engine.writeReg_withRecord b c r v s.toEngine)

theorem State.eraseErrors_complete (i : Instr) :
    ((s.withRecord b c).complete (effectOf i)).eraseErrors =
      (s.complete (effectOf i)).eraseErrors := by
  rw [State.complete, State.withRecord, effectOf_withRecord]
  rfl

/-- A refused command leaves no trace but the error (R102, R129). -/
theorem State.eraseErrors_issue (i : Instr) (n : Bool) :
    ((s.withRecord b c).issue i n).eraseErrors = (s.issue i n).eraseErrors := by
  simp only [State.issue, apply_ite State.eraseErrors]
  rfl

theorem State.eraseErrors_waitStep :
    (s.withRecord b c).waitStep.eraseErrors = s.waitStep.eraseErrors := by
  simp only [State.waitStep_eq, apply_ite State.eraseErrors]
  rfl

theorem State.eraseErrors_idle : (s.withRecord b c).idle.eraseErrors = s.idle.eraseErrors := by
  simp only [State.idle, apply_ite State.eraseErrors]
  rfl

theorem State.eraseErrors_resetEdge (p : Option Access) :
    ((s.withRecord b c).resetEdge p).eraseErrors = (s.resetEdge p).eraseErrors := by
  cases p <;> rfl

end Views

/-- A decodable word at the host's event is the issue of its command (R102). -/
theorem issueWord_of_command {s : State} {v : Word} {i : Instr} (hd : decode v = .ok i)
    (ht : s.turn = .host) : issueWord v s = .next (s.issue i (needsMask i)) := by
  rw [issueWord, hd]
  exact (exec_eq_lifecycle i s).trans (by rw [State.lifecycle, ht])

/-- Any other word records an error, busy or not (R73, R102). -/
theorem issueWord_of_noCommand {s : State} {v : Word} {d : DecodeError} (hd : decode v = .error d) :
    issueWord v s = .next (s.withError (if s.busy = true then 2 else 1)) := by
  rcases issueWord_cases v s with ⟨i, hi, -⟩ | ⟨-, -, he⟩
  · rw [hd] at hi
    cases hi
  · exact he

/-- The same event comes next in the second run, and it leaves the same view: the guards of every event
look at neither ERR nor ERRCODE (R131). -/
theorem step_withRecord {s t : State} (b : Bool) (c : BitVec 4) (h : step s = .next t) :
    ∃ u, step (s.withRecord b c) = .next u ∧ u.eraseErrors = t.eraseErrors := by
  rcases step_cases h with
    ⟨hm, hp, hb, i, hi, rfl⟩ | ⟨hm, hoff, rfl⟩ | ⟨hm, hi, rfl⟩ | ⟨p, rest, hm, hi, rfl⟩ |
    ⟨rest, hm, hi, rfl⟩ | ⟨inp, rest, hm, hl, hi, hinp, rfl⟩ | ⟨rest, hn, rfl⟩ |
    ⟨a, rest, hn, hl, rfl⟩ | ⟨a, o, rest, hn, hl, hw, rfl⟩ | ⟨a, o, rest, hn, hl, hw, hc, rfl⟩ |
    ⟨a, o, rest, i, hn, hl, hw, ha, hd, rfl⟩ | ⟨a, o, rest, d, hn, hl, hw, ha, hd, rfl⟩
  · exact ⟨_, step_of_completion ⟨hm, hp⟩ hb hi, (s.take .engine).eraseErrors_complete b c i⟩
  · exact ⟨_, step_of_noCompletion hm hoff, (s.take .engine).eraseErrors_idle b c⟩
  · exact ⟨_, step_of_noInput hm hi, (s.take .host).eraseErrors_idle b c⟩
  · exact ⟨_, step_of_resetEdge hm hi, (s.afterInput rest).eraseErrors_resetEdge b c p⟩
  · exact ⟨_, step_of_powerLoss hm hi, rfl⟩
  · exact ⟨_, step_of_stuckStatement hl hm hi hinp, rfl⟩
  · exact ⟨_, step_of_wait hn, (s.afterInput rest).eraseErrors_waitStep b c⟩
  · exact ⟨_, step_of_illegal (s := s.withRecord b c) hn hl, rfl⟩
  · exact ⟨_, step_of_read hn hl hw, rfl⟩
  · exact ⟨_, step_of_write hn hl hw hc,
      (s.afterInput rest).eraseErrors_regWrite b c (regAt a.addr) a.wdata⟩
  · exact ⟨_, (step_of_cmdWrite (s := s.withRecord b c) hn hl hw (ha ▸ regAt_cmd)).trans
        (issueWord_of_command hd rfl),
      ((s.afterInput rest).answer .writeDone).eraseErrors_issue b c i (needsMask i)⟩
  · exact ⟨_, (step_of_cmdWrite (s := s.withRecord b c) hn hl hw (ha ▸ regAt_cmd)).trans
        (issueWord_of_noCommand hd), rfl⟩

/-- Settles O29: the second run goes on, and shows the same view as the first. -/
theorem recordedErrorDoesNotBlock : Obligations.RecordedErrorDoesNotBlock := by
  intro s t b c h
  obtain ⟨u, hu, hview⟩ := step_withRecord b c h
  exact ⟨u, hu, State.eq_of_eraseErrors hview⟩

end Sys2Proof.Machine
end
